-- ==== Sys2Proof/Word.lean ====
section
/-! DEFINITION. The plain words of SWPE: the four code formats of rule R45 and the data registers' widths. -/

namespace Sys2Proof

/-- S format, `ST[3:0]` (R45, R46). -/
abbrev StateCode := BitVec 4
/-- L format, `LCMD[1:0]` (R45, R47). -/
abbrev LineCode := BitVec 2
/-- T format, `TCMD`, the signal `tmr_reset` (R45, R48). -/
abbrev TimerCode := BitVec 1
/-- R format, `STATUS[2:0]` (R45, R121). -/
abbrev ResultCode := BitVec 3
/-- `FRAME[39:0]` (R14). -/
abbrev FrameWord := BitVec 40
/-- `BITCNT[5:0]` (R16). -/
abbrev BitCount := BitVec 6
/-- One byte of the frame (R15). -/
abbrev Byte := BitVec 8
/-- A result port in tenths, 12 bits (R112). -/
abbrev Tenths := BitVec 12

/-- A code in one of the four formats of R45. The formats are separate fields: the same number means
different things in each. -/
inductive CodeWord where
  | state  (c : StateCode)
  | line   (c : LineCode)
  | timer  (c : TimerCode)
  | result (c : ResultCode)
  deriving DecidableEq, Repr

end Sys2Proof
end

