-- ==== Sys2Proof/Config.lean ====
section
/-! DEFINITION. What an implementation fixes (the parameters of rule R7), the input ports of a cycle (R22),
and the one free value of the model (the inputs of a cycle nobody has laid down). -/

namespace Sys2Proof

/-- The parameters of R7 that the model takes as arguments. `N_BITS` = 40 is fixed and no field. -/
structure Params where
  /-- `T_TIMEOUT`: maximum wait of every timed wait, in timer units. -/
  tTimeout : Nat
  /-- `T_BIT`: bit threshold of the discriminator. -/
  tBit : Nat
  /-- `T_START`: length of the start low pulse. -/
  tStart : Nat
  /-- `T_SETTLE`: settle delay after release. -/
  tSettle : Nat
  /-- `TW`: width of `TICKS` in bits. -/
  tw : Nat
  /-- `CHECKSUM_EN` (OPEN in the spec, default 1: D12). -/
  checksumEn : Bool
  deriving DecidableEq, Repr

/-- The reference values of R7. -/
def Params.reference : Params :=
  { tTimeout := 100, tBit := 50, tStart := 18000, tSettle := 30, tw := 16, checksumEn := true }

/-- The input ports of one cycle: R22, "A model's `Inputs` type is the record `(rst, start, line_in,
tick_en)` of four booleans". `clk` is implicit in the step. -/
structure Inputs where
  rst    : Bool
  start  : Bool
  lineIn : Bool
  tickEn : Bool
  deriving DecidableEq, Repr, Inhabited

/-- FREE VALUE (U6, U7, U8 of spec/93: `any value`; log 4): the inputs of cycle `n`, for a cycle whose inputs
no stimulus lays down. It has no body, so nothing can be proved of a particular value. -/
opaque Config.freeInputs : Nat → Inputs

/-- The inputs `State.reset` shows in its first cycle (DESIGN CHOICE, log 5, unsafe): no reset, no request, the
released line reads high (R31, R143 (a)), a tick (R24: the simplest legal environment). -/
def Config.firstInputs : Inputs := { rst := false, start := false, lineIn := true, tickEn := true }

end Sys2Proof
end

