-- ==== Sys2Proof/Syntax.lean ====
section
/-! DEFINITION. The instructions: one constructor for every row of spec/opcode_table.json (22 rows). No operation of
this hardware has an operand (R45, R49). -/

namespace Sys2Proof

/-- The operations, commands, primitives and result codes of the code table (R46, R47, R48, R53, R121). -/
inductive Instr where
  -- S format: the nine state operations (R46)
  | idle
  | startLow
  | startSettle
  | awaitAckLow
  | awaitAckHigh
  | awaitDataStart
  | bitLow
  | bitHigh
  | done
  -- L format: line commands (R47)
  | hold
  | driveLow
  | releaseHigh
  -- T format: timer commands (R48)
  | tmrCount
  | tmrReset
  -- primitives and the pseudo-operation without a code (R47, R48, R54)
  | readLevel
  | tmrRead
  | readSensor
  -- R format: result codes (R121)
  | resultNone
  | resultOk
  | resultNoResponse
  | resultFrameTimeout
  | resultChecksumMismatch
  deriving DecidableEq, Repr

end Sys2Proof
end

