-- ==== Sys2Proof/WellFormed.lean ====
section
/-! DEFINITION. The checks: which code words are legal (R45, R50, R51), which configurations the spec describes (R7).
An `Instr` has no operand, so there is nothing to check in it beyond its having a code or not (R47, R48, R54). -/

namespace Sys2Proof

/-- R45: S codes 0 to 8 are legal, L code 3 is reserved, R codes 5 to 7 are never produced; both T codes are legal. -/
def CodeWord.wf : CodeWord → Bool
  | .state c  => decide (c.toNat ≤ 8)
  | .line c   => decide (c.toNat ≤ 2)
  | .timer _  => true
  | .result c => decide (c.toNat ≤ 4)

/-- Does the operation have a code in one of the four formats? `READ_LEVEL` and `TMR_READ` have "no command code"
(R47, R48) and `READ_SENSOR` "is not a code" (R54). -/
def Instr.hasCode : Instr → Bool
  | .readLevel | .tmrRead | .readSensor => false
  | .idle | .startLow | .startSettle | .awaitAckLow | .awaitAckHigh | .awaitDataStart
  | .bitLow | .bitHigh | .done | .hold | .driveLow | .releaseHigh | .tmrCount | .tmrReset
  | .resultNone | .resultOk | .resultNoResponse | .resultFrameTimeout | .resultChecksumMismatch => true

/-- Is it one of the nine state operations, which the sequencer executes by their code in `ST` (R8, R46)? -/
def Instr.isStateOp : Instr → Bool
  | .idle | .startLow | .startSettle | .awaitAckLow | .awaitAckHigh | .awaitDataStart
  | .bitLow | .bitHigh | .done => true
  | .hold | .driveLow | .releaseHigh | .tmrCount | .tmrReset | .readLevel | .tmrRead | .readSensor
  | .resultNone | .resultOk | .resultNoResponse | .resultFrameTimeout | .resultChecksumMismatch => false

/-- The constraints of R7 on a configuration ("or the rules of this spec do not describe it"). -/
def Params.wf (p : Params) : Bool :=
  decide (0 < p.tBit) && decide (p.tBit < p.tTimeout) && decide (p.tTimeout < 2 ^ p.tw)
    && decide (p.tStart < 2 ^ p.tw) && decide (p.tSettle < 2 ^ p.tw) && decide (1 ≤ p.tw)

end Sys2Proof
end

