-- ==== Sys2Proof/Decode.lean ====
section
/-! DEFINITION. The codes of the four formats (R46, R47, R48, R121), the decoder (total, rejecting by name), the
encoder, and the host's reading of a row of spec/opcode_table.json. -/

namespace Sys2Proof

/-! ### The codes -/

namespace Code

/-- R46, code 0. -/
@[simp] abbrev idle : StateCode := 0#4
/-- R46, code 1. -/
@[simp] abbrev startLow : StateCode := 1#4
/-- R46, code 2. -/
@[simp] abbrev startSettle : StateCode := 2#4
/-- R46, code 3. -/
@[simp] abbrev awaitAckLow : StateCode := 3#4
/-- R46, code 4. -/
@[simp] abbrev awaitAckHigh : StateCode := 4#4
/-- R46, code 5. -/
@[simp] abbrev awaitDataStart : StateCode := 5#4
/-- R46, code 6. -/
@[simp] abbrev bitLow : StateCode := 6#4
/-- R46, code 7. -/
@[simp] abbrev bitHigh : StateCode := 7#4
/-- R46, code 8. -/
@[simp] abbrev done : StateCode := 8#4

/-- R47, `LCMD` 0. -/
@[simp] abbrev hold : LineCode := 0#2
/-- R47, `LCMD` 1. -/
@[simp] abbrev driveLow : LineCode := 1#2
/-- R47, `LCMD` 2. -/
@[simp] abbrev releaseHigh : LineCode := 2#2

/-- R48, `TCMD` 0. -/
@[simp] abbrev tmrCount : TimerCode := 0#1
/-- R48, `TCMD` 1. -/
@[simp] abbrev tmrReset : TimerCode := 1#1

/-- R121, `STATUS` 0. -/
@[simp] abbrev none : ResultCode := 0#3
/-- R121, `STATUS` 1. -/
@[simp] abbrev ok : ResultCode := 1#3
/-- R121, `STATUS` 2. -/
@[simp] abbrev noResponse : ResultCode := 2#3
/-- R121, `STATUS` 3. -/
@[simp] abbrev frameTimeout : ResultCode := 3#3
/-- R121, `STATUS` 4. -/
@[simp] abbrev checksumMismatch : ResultCode := 4#3

end Code

/-! ### Decoding -/

/-- Why a code word names no operation. -/
inductive Reject where
  /-- `ST` codes 9 to 15 (R50). -/
  | illegalState (c : StateCode)
  /-- `LCMD` = 3 (R51). -/
  | reservedLine (c : LineCode)
  /-- `STATUS` 5, 6 and 7 (R51). -/
  | reservedResult (c : ResultCode)
  deriving DecidableEq, Repr

/-- R46: the S format. -/
def decodeState (c : StateCode) : Except Reject Instr :=
  match c.toNat with
  | 0 => .ok .idle
  | 1 => .ok .startLow
  | 2 => .ok .startSettle
  | 3 => .ok .awaitAckLow
  | 4 => .ok .awaitAckHigh
  | 5 => .ok .awaitDataStart
  | 6 => .ok .bitLow
  | 7 => .ok .bitHigh
  | 8 => .ok .done
  | _ => .error (.illegalState c)

/-- R47: the L format. -/
def decodeLine (c : LineCode) : Except Reject Instr :=
  match c.toNat with
  | 0 => .ok .hold
  | 1 => .ok .driveLow
  | 2 => .ok .releaseHigh
  | _ => .error (.reservedLine c)

/-- R48: the T format. -/
def decodeTimer (c : TimerCode) : Instr :=
  match c.toNat with
  | 0 => .tmrCount
  | _ => .tmrReset

/-- R121: the R format. -/
def decodeResult (c : ResultCode) : Except Reject Instr :=
  match c.toNat with
  | 0 => .ok .resultNone
  | 1 => .ok .resultOk
  | 2 => .ok .resultNoResponse
  | 3 => .ok .resultFrameTimeout
  | 4 => .ok .resultChecksumMismatch
  | _ => .error (.reservedResult c)

/-- The operation a code word names (R45, R55). -/
def decode : CodeWord → Except Reject Instr
  | .state c  => decodeState c
  | .line c   => decodeLine c
  | .timer c  => .ok (decodeTimer c)
  | .result c => decodeResult c

/-! ### Encoding -/

/-- The code word of an operation, written from the tables of R46, R47, R48 and R121; the three operations without a
code have none (R47, R48, R54). -/
def encode : Instr → Option CodeWord
  | .idle                   => some (.state 0#4)
  | .startLow               => some (.state 1#4)
  | .startSettle            => some (.state 2#4)
  | .awaitAckLow            => some (.state 3#4)
  | .awaitAckHigh           => some (.state 4#4)
  | .awaitDataStart         => some (.state 5#4)
  | .bitLow                 => some (.state 6#4)
  | .bitHigh                => some (.state 7#4)
  | .done                   => some (.state 8#4)
  | .hold                   => some (.line 0#2)
  | .driveLow               => some (.line 1#2)
  | .releaseHigh            => some (.line 2#2)
  | .tmrCount               => some (.timer 0#1)
  | .tmrReset               => some (.timer 1#1)
  | .readLevel              => none
  | .tmrRead                => none
  | .readSensor             => none
  | .resultNone             => some (.result 0#3)
  | .resultOk               => some (.result 1#3)
  | .resultNoResponse       => some (.result 2#3)
  | .resultFrameTimeout     => some (.result 3#3)
  | .resultChecksumMismatch => some (.result 4#3)

/-! ### The host's reading of a table row -/

/-- The code word that a number of `nbits` bits is (log 16). The widths of R45 name the format: 4 bits S, 2 bits L,
1 bit T, 3 bits R. A number given in whole bytes is an S code, the only format the sequencer selects an operation
by (R55); a number that does not fit the format is none. -/
def codeWordOf (nbits w : Nat) : Option CodeWord :=
  match nbits with
  | 0 => none
  | 1 => if w < 2 then some (.timer (BitVec.ofNat 1 w)) else none
  | 2 => if w < 4 then some (.line (BitVec.ofNat 2 w)) else none
  | 3 => if w < 8 then some (.result (BitVec.ofNat 3 w)) else none
  | _ => if w < 16 then some (.state (BitVec.ofNat 4 w)) else none

/-- The instruction the decoder reads from a table row's bits. -/
def decodeTableWord (nbits w : Nat) : Option Instr :=
  match codeWordOf nbits w with
  | none => none
  | some c =>
    match decode c with
    | .ok i => some i
    | .error _ => none

end Sys2Proof
end

