-- ==== Sys2Proof/Machine/State.lean ====
section
/-! DEFINITION. The state of SWPE and TMR as plain data (R10), the configuration and the inputs the step runs under,
the reasons a step can stop, and the state after reset (R28). -/

namespace Sys2Proof.Machine

/-- R10: "The complete state of the modelled system is seven registers, and nothing else." -/
structure Regs where
  /-- `ST[3:0]`: code of the state operation executed in this cycle (R11). -/
  st : StateCode
  /-- `FRAME[39:0]`: the frame shifter (R14). -/
  frame : FrameWord
  /-- `BITCNT[5:0]`: bits shifted into `FRAME` in this read (R16). -/
  bitcnt : BitCount
  /-- `OE`: output enable of the pin (R18). -/
  oe : Bool
  /-- `OUT`: the level driven when `OE` = 1 (R19). -/
  out : Bool
  /-- `STATUS[2:0]`: result of the last finished read (R20). -/
  status : ResultCode
  /-- `TICKS[TW-1:0]` of TMR (R17), as the number it holds; every write of it wraps modulo 2^TW (log 3). -/
  ticks : Nat
  deriving DecidableEq, Repr

/-- R28: the reset value of every register. -/
def Regs.reset : Regs :=
  { st := 0#4, frame := 0#40, bitcnt := 0#6, oe := false, out := false, status := 0#3, ticks := 0 }

/-- The environment as far as a run fixes it (MODEL's own, log 4): the inputs of the current cycle, those of the
coming cycles that a stimulus lays down (R8), and the number of cycles run, which indexes the free inputs. -/
structure Env where
  now    : Inputs
  coming : List Inputs
  cycle  : Nat
  deriving DecidableEq, Repr

/-- The machine: the seven registers, the configuration it was built with (R7; never written), its environment. -/
structure State where
  regs : Regs
  cfg  : Params
  env  : Env
  deriving DecidableEq, Repr

/-- Reasons to stop with a fault. There is none: every operation of the spec answers a next state (R43), and its
errors are entries into IDLE, not stops (R124, R129, R130). Safe. -/
inductive Fault where
  deriving DecidableEq, Repr

/-- Reasons to stop without a meaning. -/
inductive Refusal where
  /-- `exec`, for an instruction that has no meaning yet (no arm raises it). Safe. -/
  | notModelled (mnemonic : String)
  /-- `step`, for a configuration outside the constraints of R7, which "the rules of this spec do not describe"
  (log 8). Safe. -/
  | configNotDescribed
  deriving DecidableEq, Repr

/-- The machine right after reset: the registers of R28, the reference configuration of R7, and an environment that
lays down the first cycle only (log 5). -/
def State.reset : State :=
  { regs := Regs.reset
    cfg := Params.reference
    env := { now := Config.firstInputs, coming := [], cycle := 0 } }

end Sys2Proof.Machine
end

