-- ==== Sys2Proof/Machine/Operands.lean ====
section
/-! DEFINITION. What the operations read: the line (R62), the counter (R72), the bytes of the frame (R15), and the
arithmetic done on them (R99, R111, R112). -/

namespace Sys2Proof.Machine

/-- `LineRead()` (R62): the level of the pin in this cycle, true for high. -/
abbrev lineRead (x : Inputs) : Bool := x.lineIn

/-- `TimerRead()` (R72): the current value of `TICKS`. -/
abbrev timerRead (r : Regs) : Nat := r.ticks

/-- `B0` = `FRAME[39:32]`, humidity integer part (R15). -/
def byte0 (f : FrameWord) : Byte := f.extractLsb' 32 8
/-- `B1` = `FRAME[31:24]`, humidity fractional part (R15). -/
def byte1 (f : FrameWord) : Byte := f.extractLsb' 24 8
/-- `B2` = `FRAME[23:16]`, temperature integer part (R15). -/
def byte2 (f : FrameWord) : Byte := f.extractLsb' 16 8
/-- `B3` = `FRAME[15:8]`, temperature fractional part (R15). -/
def byte3 (f : FrameWord) : Byte := f.extractLsb' 8 8
/-- `B4` = `FRAME[7:0]`, checksum (R15). -/
def byte4 (f : FrameWord) : Byte := f.extractLsb' 0 8

/-- R99: `trunc_40((FRAME << 1) | zext_40(bit))`. -/
def shiftIn (f : FrameWord) (bit : Bool) : FrameWord := (f <<< 1) ||| (BitVec.ofBool bit).setWidth 40

/-- R111: `trunc_8(B0 + B1 + B2 + B3)`, the sum taken exactly and then reduced modulo 256 (R116 (e)). -/
def checksum (f : FrameWord) : Byte :=
  BitVec.ofNat 8 ((byte0 f).toNat + (byte1 f).toNat + (byte2 f).toNat + (byte3 f).toNat)

/-- R111: the frame's invariant, `B4 == trunc_8(B0 + B1 + B2 + B3)`. -/
def checksumOk (f : FrameWord) : Bool := checksum f == byte4 f

/-- R112: `10 * integer + fraction`, exact, on 12 bits. -/
def tenths (whole fraction : Byte) : Tenths := BitVec.ofNat 12 (10 * whole.toNat + fraction.toNat)

/-- R112: `HUM_X10 = 10 * B0 + B1`. -/
def humX10 (f : FrameWord) : Tenths := tenths (byte0 f) (byte1 f)

/-- R112: `TEMP_X10 = 10 * B2 + B3`. -/
def tempX10 (f : FrameWord) : Tenths := tenths (byte2 f) (byte3 f)

end Sys2Proof.Machine
end

