-- ==== Sys2Proof/Machine/Flags.lean ====
section
/-! DEFINITION. The conditions computed from the registers in every cycle (R21, R75, R76, R77): none of them is state. -/

namespace Sys2Proof.Machine

/-- `TO`, the timeout watchdog (R75): `TimerRead() >= T_TIMEOUT`. -/
def timedOut (p : Params) (r : Regs) : Bool := decide (p.tTimeout ≤ timerRead r)

/-- `GT`, the pulse-width discriminator (R76): `TimerRead() > T_BIT`, strict. -/
def longPulse (p : Params) (r : Regs) : Bool := decide (p.tBit < timerRead r)

/-- `DS` (R77): the start pulse is over. -/
def startOver (p : Params) (r : Regs) : Bool := decide (p.tStart ≤ timerRead r)

/-- `DL` (R77): the settle delay is over. -/
def settleOver (p : Params) (r : Regs) : Bool := decide (p.tSettle ≤ timerRead r)

/-- `busy = (ST != IDLE)` (R21). -/
def busy (r : Regs) : Bool := r.st != Code.idle

/-- `valid = (STATUS == OK)` (R21, R113). -/
def valid (r : Regs) : Bool := r.status == Code.ok

end Sys2Proof.Machine
end

