-- ==== Sys2Proof/Machine/Ops.lean ====
section
/-! DEFINITION. The shared operations: what one cycle commands (`Ctl`), what the Protocol Engine, the Line Driver and TMR
make of it at the clock edge (R9, R36), the timed wait (R81), the entry of an error (R124, R125), the illegal-state
recovery (R50), reset (R140), and the passing of a cycle's inputs. -/

namespace Sys2Proof.Machine

/-- Everything a state operation decides in one cycle, from current values only (R9): the two commands it issues
(R47, R48) and the next values of the Protocol Engine's registers. -/
structure Ctl where
  lcmd   : LineCode
  tcmd   : TimerCode
  st     : StateCode
  frame  : FrameWord
  bitcnt : BitCount
  status : ResultCode
  deriving DecidableEq, Repr

/-- "(no write)": `HOLD`, `TCMD` = 0 (R56), every register keeps its value (R9). -/
def keep (r : Regs) : Ctl :=
  { lcmd := Code.hold, tcmd := Code.tmrCount, st := r.st, frame := r.frame, bitcnt := r.bitcnt, status := r.status }

/-! ### The three parties of a clock edge -/

/-- The Protocol Engine's registers take their next values. -/
def engine (c : Ctl) (r : Regs) : Regs :=
  { r with st := c.st, frame := c.frame, bitcnt := c.bitcnt, status := c.status }

/-- The Line Driver (R47, R60, R61, R63): 1 drives low, 2 releases, any other code holds (R51: "would treat it as
`HOLD`"). -/
def lineDriver (c : LineCode) (r : Regs) : Regs :=
  match c.toNat with
  | 1 => { r with oe := true, out := false }
  | 2 => { r with oe := false }
  | _ => r

/-- R73 without reset: one more timer unit on a tick, modulo 2^TW. -/
def countTicks (p : Params) (x : Inputs) (ticks : Nat) : Nat :=
  if x.tickEn then (ticks + 1) % 2 ^ p.tw else ticks

/-- TMR (R71, R73): a reset overrides the increment. -/
def timer (p : Params) (x : Inputs) (c : TimerCode) (r : Regs) : Regs :=
  { r with ticks := if c = Code.tmrReset then 0 else countTicks p x r.ticks }

/-- The clock edge: all register updates of a cycle together (R9, R36). The three parties write disjoint registers and
read none of each other's, so the order they stand in here does not matter. -/
def clockEdge (p : Params) (x : Inputs) (c : Ctl) (r : Regs) : Regs :=
  timer p x c.tcmd (lineDriver c.lcmd (engine c r))

/-- What a state operation is: from the parameters, the registers and the inputs of the cycle, its commands and writes. -/
abbrev Control := Params → Regs → Inputs → Ctl

/-- One cycle of a state operation: decide, then the clock edge (R8, R9). -/
def runControl (f : Control) (s : State) : State :=
  { s with regs := clockEdge s.cfg s.env.now (f s.cfg s.regs s.env.now) s.regs }

/-- The Protocol Engine's and the Line Driver's part of a cycle on its own, without TMR's. -/
def applyWrites (c : Ctl) (s : State) : State :=
  { s with regs := lineDriver c.lcmd (engine c s.regs) }

/-! ### Errors -/

/-- `Fail(e)` (R124), the entry of the two timeout errors: `STATUS <- e`, the frame is discarded, the line is
released, control goes to IDLE. No timer reset, nothing is saved, and there is no return operation (R129). -/
def fail (e : ResultCode) (r : Regs) : Ctl :=
  { keep r with lcmd := Code.releaseHigh, st := Code.idle, frame := 0#40, bitcnt := 0#6, status := e }

/-- The entry of `ChecksumMismatch` (R125): `BITCNT` and `OE` are left. -/
def checksumError (r : Regs) : Ctl :=
  { keep r with st := Code.idle, frame := 0#40, status := Code.checksumMismatch }

/-- The successful end of a read (R110): `FRAME` is kept to feed the result ports. -/
def success (r : Regs) : Ctl :=
  { keep r with st := Code.idle, status := Code.ok }

/-- `Wait(L, E, N, A)` (R81), with `onLevel` for "A; ST <- N". The timeout is tested first, then the level. -/
def timedWait (level : Bool) (e : ResultCode) (onLevel : Ctl) (p : Params) (r : Regs) (x : Inputs) : Ctl :=
  if timedOut p r then fail e r
  else if lineRead x = level then onLevel
  else keep r

/-- `TimerReset(); ST <- n`, and no other write. -/
def moveOn (n : StateCode) (r : Regs) : Ctl :=
  { keep r with tcmd := Code.tmrReset, st := n }

/-! ### Cycles in which no state operation executes -/

/-- The safe recovery from an illegal `ST` code (R50, D16). -/
def recovery (r : Regs) : Ctl :=
  { keep r with lcmd := Code.releaseHigh, st := Code.idle, frame := 0#40, bitcnt := 0#6, status := Code.none }

/-- A cycle with an illegal `ST` code: the recovery, with TMR counting (R50). -/
def recoverCycle (s : State) : State := runControl (fun _ r _ => recovery r) s

/-- A cycle with `rst` = 1 (R140): every register takes its reset value (R28), whatever the state and the other inputs. -/
def resetCycle (s : State) : State := { s with regs := Regs.reset }

/-! ### The environment -/

/-- The inputs of the next cycle become current: the first the stimulus lays down, or free ones (log 4). -/
def nextCycle (s : State) : State :=
  match s.env.coming with
  | [] => { s with env := { now := Config.freeInputs (s.env.cycle + 1), coming := [], cycle := s.env.cycle + 1 } }
  | x :: rest => { s with env := { now := x, coming := rest, cycle := s.env.cycle + 1 } }

/-- The caller raises `start` in the current cycle (R54, R135). -/
def raiseStart (s : State) : State :=
  { s with env := { s.env with now := { s.env.now with start := true } } }

end Sys2Proof.Machine
end

