-- ==== Sys2Proof/Machine/Frame.lean ====
section
/-! DEFINITION. Frame reception (spec/43_bit_decode_frame.md): BIT_LOW, BIT_HIGH with the discriminator and the frame shifter. -/

namespace Sys2Proof.Machine

/-- R96: `Wait(L = 1, E = FrameTimeout, N = BIT_HIGH, A = TimerReset())`. -/
def ctlBitLow : Control := fun p r x =>
  timedWait true Code.frameTimeout (moveOn Code.bitHigh r) p r x

/-- `BIT_LOW` (R96). -/
def execBitLow (s : State) : Host.Outcome State Fault Refusal := .next (runControl ctlBitLow s)

/-- The decoded bit is classified, shifted in and counted in the cycle of the sample (R97, R98, R99, R100): after the
40th (`BITCNT` = 39) comes `DONE` without a timer reset, before it the next bit's `BIT_LOW` with one. -/
def bitDecoded (p : Params) (r : Regs) : Ctl :=
  { lcmd := Code.hold
    tcmd := if r.bitcnt = 39#6 then Code.tmrCount else Code.tmrReset
    st := if r.bitcnt = 39#6 then Code.done else Code.bitLow
    frame := shiftIn r.frame (longPulse p r)
    bitcnt := r.bitcnt + 1#6
    status := r.status }

/-- R97. -/
def ctlBitHigh : Control := fun p r x =>
  timedWait false Code.frameTimeout (bitDecoded p r) p r x

/-- `BIT_HIGH` (R97). -/
def execBitHigh (s : State) : Host.Outcome State Fault Refusal := .next (runControl ctlBitHigh s)

end Sys2Proof.Machine
end

