-- ==== Sys2Proof/Machine/Handshake.lean ====
section
/-! DEFINITION. The handshake state operations and the host command (spec/42_handshake.md). A state operation's meaning is its
whole clock cycle. -/

namespace Sys2Proof.Machine

/-- `READ_SENSOR` (R54, R80): the caller raises `start`; it is looked at by `IDLE` only (R25; log 11). -/
def execReadSensor (s : State) : Host.Outcome State Fault Refusal :=
  .next (raiseStart s)

/-- R82: accept a read. -/
def ctlIdle : Control := fun _ r x =>
  if x.start then
    { lcmd := Code.driveLow, tcmd := Code.tmrReset, st := Code.startLow, frame := 0#40, bitcnt := 0#6,
      status := Code.none }
  else keep r

/-- `IDLE` (R82). -/
def execIdle (s : State) : Host.Outcome State Fault Refusal := .next (runControl ctlIdle s)

/-- R83: release the line when the start pulse is over. -/
def ctlStartLow : Control := fun p r _ =>
  if startOver p r then { moveOn Code.startSettle r with lcmd := Code.releaseHigh } else keep r

/-- `START_LOW` (R83). -/
def execStartLow (s : State) : Host.Outcome State Fault Refusal := .next (runControl ctlStartLow s)

/-- R84: go on when the settle delay is over. -/
def ctlStartSettle : Control := fun p r _ =>
  if settleOver p r then moveOn Code.awaitAckLow r else keep r

/-- `START_SETTLE` (R84). -/
def execStartSettle (s : State) : Host.Outcome State Fault Refusal := .next (runControl ctlStartSettle s)

/-- R85: `Wait(L = 0, E = NoResponse, N = AWAIT_ACK_HIGH, A = TimerReset())`. -/
def ctlAwaitAckLow : Control := fun p r x =>
  timedWait false Code.noResponse (moveOn Code.awaitAckHigh r) p r x

/-- `AWAIT_ACK_LOW` (R85). -/
def execAwaitAckLow (s : State) : Host.Outcome State Fault Refusal := .next (runControl ctlAwaitAckLow s)

/-- R86: `Wait(L = 1, E = NoResponse, N = AWAIT_DATA_START, A = TimerReset())`. -/
def ctlAwaitAckHigh : Control := fun p r x =>
  timedWait true Code.noResponse (moveOn Code.awaitDataStart r) p r x

/-- `AWAIT_ACK_HIGH` (R86). -/
def execAwaitAckHigh (s : State) : Host.Outcome State Fault Refusal := .next (runControl ctlAwaitAckHigh s)

/-- R87: `Wait(L = 0, E = NoResponse, N = BIT_LOW, A = TimerReset())`. -/
def ctlAwaitDataStart : Control := fun p r x =>
  timedWait false Code.noResponse (moveOn Code.bitLow r) p r x

/-- `AWAIT_DATA_START` (R87). -/
def execAwaitDataStart (s : State) : Host.Outcome State Fault Refusal := .next (runControl ctlAwaitDataStart s)

end Sys2Proof.Machine
end

