-- ==== Sys2Proof/Machine/Line.lean ====
section
/-! DEFINITION. The Line Driver's operations (spec/40_line_driver.md): HOLD, DRIVE_LOW, RELEASE_HIGH, READ_LEVEL. A command
is executed here with its own effect only, inside the current cycle (log 9); in a run the state operations issue it. -/

namespace Sys2Proof.Machine

/-- `HOLD` (R63): the Line Driver keeps its state. -/
def execHold (s : State) : Host.Outcome State Fault Refusal :=
  .next { s with regs := lineDriver Code.hold s.regs }

/-- `DRIVE_LOW` (R60): `OUT <- 0; OE <- 1`. -/
def execDriveLow (s : State) : Host.Outcome State Fault Refusal :=
  .next { s with regs := lineDriver Code.driveLow s.regs }

/-- `RELEASE_HIGH` (R61): `OE <- 0`. -/
def execReleaseHigh (s : State) : Host.Outcome State Fault Refusal :=
  .next { s with regs := lineDriver Code.releaseHigh s.regs }

/-- `READ_LEVEL` (R62): its result is `lineRead` of the cycle's inputs; no register is written (log 10). -/
def execReadLevel (s : State) : Host.Outcome State Fault Refusal :=
  .next s

end Sys2Proof.Machine
end

