-- ==== Sys2Proof/Machine/Result.lean ====
section
/-! DEFINITION. DONE (spec/44_result.md) and the result codes (spec/60_exceptions.md). A result code is executed as the event it
records (log 12): the entry of its error, the successful end, or the clearing; TMR is not part of it (log 9). -/

namespace Sys2Proof.Machine

/-- R110: the checksum verdict, if checking is configured (R111). -/
def ctlDone : Control := fun p r _ =>
  if p.checksumEn && !checksumOk r.frame then checksumError r else success r

/-- `DONE` (R110). -/
def execDone (s : State) : Host.Outcome State Fault Refusal := .next (runControl ctlDone s)

/-- `NONE` (R121): no finished read to report, `STATUS <- NONE`. -/
def execResultNone (s : State) : Host.Outcome State Fault Refusal :=
  .next (applyWrites { keep s.regs with status := Code.none } s)

/-- `OK` (R121, R110): the read succeeded. -/
def execResultOk (s : State) : Host.Outcome State Fault Refusal :=
  .next (applyWrites (success s.regs) s)

/-- `NORESPONSE` (R122): the entry `Fail(NoResponse)` (R124). -/
def execResultNoResponse (s : State) : Host.Outcome State Fault Refusal :=
  .next (applyWrites (fail Code.noResponse s.regs) s)

/-- `FRAMETIMEOUT` (R123): the entry `Fail(FrameTimeout)` (R124). -/
def execResultFrameTimeout (s : State) : Host.Outcome State Fault Refusal :=
  .next (applyWrites (fail Code.frameTimeout s.regs) s)

/-- `CHECKSUMMISMATCH` (R125): its entry. -/
def execResultChecksumMismatch (s : State) : Host.Outcome State Fault Refusal :=
  .next (applyWrites (checksumError s.regs) s)

end Sys2Proof.Machine
end

