-- ==== Sys2Proof/Machine/Timer.lean ====
section
/-! DEFINITION. The counter's operations (spec/41_timer_watchdog.md): TMR_COUNT, TMR_RESET, TMR_READ. A command is executed here
with its own effect only, inside the current cycle (log 9). -/

namespace Sys2Proof.Machine

/-- `TMR_COUNT` (R73): no reset, the counter counts if the cycle has a tick. -/
def execTmrCount (s : State) : Host.Outcome State Fault Refusal :=
  .next { s with regs := timer s.cfg s.env.now Code.tmrCount s.regs }

/-- `TMR_RESET` (R71): `TICKS <- 0`, overriding the increment. -/
def execTmrReset (s : State) : Host.Outcome State Fault Refusal :=
  .next { s with regs := timer s.cfg s.env.now Code.tmrReset s.regs }

/-- `TMR_READ` (R72): its result is `timerRead` of the registers; no register is written (log 10). -/
def execTmrRead (s : State) : Host.Outcome State Fault Refusal :=
  .next s

end Sys2Proof.Machine
end

