-- ==== Sys2Proof/Machine/Dispatch.lean ====
section
/-! DEFINITION. One arm per instruction: each is one direct call of that instruction's own meaning. -/

namespace Sys2Proof.Machine

def exec (i : Instr) (s : State) : Host.Outcome State Fault Refusal :=
  match i with
  | .idle => Sys2Proof.Machine.execIdle s
  | .startLow => Sys2Proof.Machine.execStartLow s
  | .startSettle => Sys2Proof.Machine.execStartSettle s
  | .awaitAckLow => Sys2Proof.Machine.execAwaitAckLow s
  | .awaitAckHigh => Sys2Proof.Machine.execAwaitAckHigh s
  | .awaitDataStart => Sys2Proof.Machine.execAwaitDataStart s
  | .bitLow => Sys2Proof.Machine.execBitLow s
  | .bitHigh => Sys2Proof.Machine.execBitHigh s
  | .done => Sys2Proof.Machine.execDone s
  | .hold => Sys2Proof.Machine.execHold s
  | .driveLow => Sys2Proof.Machine.execDriveLow s
  | .releaseHigh => Sys2Proof.Machine.execReleaseHigh s
  | .tmrCount => Sys2Proof.Machine.execTmrCount s
  | .tmrReset => Sys2Proof.Machine.execTmrReset s
  | .readLevel => Sys2Proof.Machine.execReadLevel s
  | .tmrRead => Sys2Proof.Machine.execTmrRead s
  | .readSensor => Sys2Proof.Machine.execReadSensor s
  | .resultNone => Sys2Proof.Machine.execResultNone s
  | .resultOk => Sys2Proof.Machine.execResultOk s
  | .resultNoResponse => Sys2Proof.Machine.execResultNoResponse s
  | .resultFrameTimeout => Sys2Proof.Machine.execResultFrameTimeout s
  | .resultChecksumMismatch => Sys2Proof.Machine.execResultChecksumMismatch s

end Sys2Proof.Machine
end

