-- ==== Sys2Proof/Machine/Fetch.lean ====
section
/-! DEFINITION. Which operation a cycle executes (R12, R55), and how a code word is put where the next step takes it from
(log 16). There is no fetch from a memory (R41): the operation is selected by `ST`. -/

namespace Sys2Proof.Machine

/-- R55: "the operation executed is the one whose code equals the current `ST`". -/
def fetch (s : State) : Except Reject Instr := decode (.state s.regs.st)

/-- The end of a cycle: the next cycle's inputs become current. -/
def endCycle : Host.Outcome State Fault Refusal → Host.Outcome State Fault Refusal
  | .next t    => .next (nextCycle t)
  | .fault f   => .fault f
  | .refused r => .refused r

/-- The state with `start` and `rst` of the current cycle as given. -/
def withRequest (start : Bool) (s : State) : State :=
  { s with env := { s.env with now := { s.env.now with rst := false, start := start } } }

/-- The situation in which the very next cycle executes or issues the code word (log 16). An S code is `ST` itself. The
other formats are not selected by `ST`, so the sequencer is put where it issues that command or writes that result
code (R56, R121); a reserved code is issued nowhere and changes nothing. -/
def placeWord (c : CodeWord) (s : State) : State :=
  match c with
  | .state k => withRequest s.env.now.start { s with regs := { s.regs with st := k } }
  | .line k =>
    match k.toNat with
    | 0 => withRequest false { s with regs := { s.regs with st := Code.idle } }
    | 1 => withRequest true { s with regs := { s.regs with st := Code.idle } }
    | 2 => withRequest s.env.now.start { s with regs := { s.regs with st := Code.startLow, ticks := s.cfg.tStart } }
    | _ => s
  | .timer k =>
    withRequest (k.toNat == 1) { s with regs := { s.regs with st := Code.idle } }
  | .result k =>
    match k.toNat with
    | 0 => withRequest true { s with regs := { s.regs with st := Code.idle } }
    | 1 => withRequest s.env.now.start
        { s with regs := { s.regs with st := Code.done, frame := 0#40, bitcnt := 40#6 } }
    | 2 => withRequest s.env.now.start
        { s with regs := { s.regs with st := Code.awaitAckLow, ticks := s.cfg.tTimeout } }
    | 3 => withRequest s.env.now.start
        { s with regs := { s.regs with st := Code.bitLow, ticks := s.cfg.tTimeout } }
    | 4 => withRequest s.env.now.start
        { s with regs := { s.regs with st := Code.done, frame := 1#40, bitcnt := 40#6 },
                 cfg := { s.cfg with checksumEn := true } }
    | _ => s

end Sys2Proof.Machine
end

