-- ==== Sys2Proof/Machine/Step.lean ====
section
/-! DEFINITION. One clock cycle (R8, R9). -/

namespace Sys2Proof.Machine

/-- One cycle: reset has priority over everything (R126, R140); otherwise the operation whose code is `ST` executes
(R55), or the recovery if the code is illegal (R50); then the next cycle's inputs become current. A configuration that
the rules do not describe (R7) is refused. -/
def step (s : State) : Host.Outcome State Fault Refusal :=
  if s.cfg.wf then
    if s.env.now.rst then .next (nextCycle (resetCycle s))
    else
      match fetch s with
      | .ok i    => endCycle (exec i s)
      | .error _ => .next (nextCycle (recoverCycle s))
  else .refused .configNotDescribed

/-- The state with a table row's word placed where the very next step takes its operation from (log 16). -/
def State.withFetchWord (s : State) (nbits w : Nat) : State :=
  match codeWordOf nbits w with
  | some c => placeWord c s
  | none => s

end Sys2Proof.Machine
end

