-- ==== Sys2Proof/Machine/Ports.lean ====
section
/-! DEFINITION. What can be seen from outside in a cycle: the output ports (R23, R113), the pin (R31, R64), the commands issued
to the Line Driver and to TMR (R23, R56), the phase (R13). Nothing here changes state. -/

namespace Sys2Proof.Machine

/-- R23: "A model's observable `Outputs` are `(line_oe, line_out, busy, status, valid, raw, hum_x10, temp_x10)`." -/
structure Outputs where
  lineOe  : Bool
  lineOut : Bool
  busy    : Bool
  status  : ResultCode
  valid   : Bool
  raw     : FrameWord
  humX10  : Tenths
  tempX10 : Tenths
  deriving DecidableEq, Repr

/-- The output ports, functions of the current registers only (R23); the data ports are gated by `valid` (R113). -/
def outputs (r : Regs) : Outputs :=
  { lineOe := r.oe
    lineOut := r.out
    busy := busy r
    status := r.status
    valid := valid r
    raw := if valid r then r.frame else 0#40
    humX10 := if valid r then humX10 r.frame else 0#12
    tempX10 := if valid r then tempX10 r.frame else 0#12 }

/-- `tmr_value[TW-1:0] = TICKS` (R23). -/
def tmrValue (r : Regs) : Nat := r.ticks

/-- The level of the pin (R31): `(OE == 1 ? OUT : 1) AND sensor_level`. -/
def pinLevel (r : Regs) (sensorLevel : Bool) : Bool := (if r.oe then r.out else true) && sensorLevel

/-- The four phases of R13. -/
inductive Phase where
  | idle
  | pull
  | release
  | sample
  deriving DecidableEq, Repr

/-- `Phase(ST)` (R13), on the nine legal codes. -/
def phase (c : StateCode) : Option Phase :=
  match c.toNat with
  | 0 => some .idle
  | 1 => some .pull
  | 2 => some .release
  | 3 => some .sample
  | 4 => some .sample
  | 5 => some .sample
  | 6 => some .sample
  | 7 => some .sample
  | 8 => some .idle
  | _ => none

/-- Is the state one of the five timed waits, the sampling states (R13, R81)? -/
def isTimedWait (c : StateCode) : Bool := decide (3 ≤ c.toNat) && decide (c.toNat ≤ 7)

/-- What the operation selected by `ST` decides in a cycle with `rst` = 0; an illegal code gives the recovery (R50). -/
def stateControl (c : StateCode) : Control :=
  match c.toNat with
  | 0 => ctlIdle
  | 1 => ctlStartLow
  | 2 => ctlStartSettle
  | 3 => ctlAwaitAckLow
  | 4 => ctlAwaitAckHigh
  | 5 => ctlAwaitDataStart
  | 6 => ctlBitLow
  | 7 => ctlBitHigh
  | 8 => ctlDone
  | _ => fun _ r _ => recovery r

/-- `LCMD` of the cycle; in a reset cycle no operation executes and none is issued (R140), which reads as `HOLD`
(log 21). -/
def issuedLine (s : State) : LineCode :=
  if s.env.now.rst then Code.hold else (stateControl s.regs.st s.cfg s.regs s.env.now).lcmd

/-- `TCMD` of the cycle, the signal `tmr_reset` (R23); in a reset cycle none is issued (log 21). -/
def issuedTimer (s : State) : TimerCode :=
  if s.env.now.rst then Code.tmrCount else (stateControl s.regs.st s.cfg s.regs s.env.now).tcmd

end Sys2Proof.Machine
end

