-- ==== Sys2Proof/Safety.lean ====
section
/-! DEFINITION. The terms the claims use: the invariant of R29, the wait windows of R74 (c), runs of cycles, stimuli, the
per-byte accumulation of R103, the transition table of R90 written row by row, and the events that write registers. -/

namespace Sys2Proof.Machine

/-! ### Runs -/

/-- `n` cycles, stopping at the first fault or refusal. -/
def runCycles : Nat → State → Host.Outcome State Fault Refusal
  | 0, s => .next s
  | n + 1, s =>
    match step s with
    | .next t    => runCycles n t
    | .fault f   => .fault f
    | .refused r => .refused r

/-- The state with a stimulus laid down: its first inputs are those of the current cycle, the others those of the coming
cycles. The empty stimulus changes nothing. -/
def State.fed (s : State) : List Inputs → State
  | [] => s
  | x :: xs => { s with env := { s.env with now := x, coming := xs } }

/-- No reset, and a tick, in every cycle of the stimulus (R152: the simpler premise for termination). -/
def ticking (l : List Inputs) : Prop := ∀ x ∈ l, x.rst = false ∧ x.tickEn = true

/-- No reset and no request in any cycle of the stimulus. -/
def quiet (l : List Inputs) : Prop := ∀ x ∈ l, x.rst = false ∧ x.start = false

/-- A cycle with a tick, without reset and without a request, at the given level of the line. -/
def tickAt (level : Bool) : Inputs := { rst := false, start := false, lineIn := level, tickEn := true }

/-- The stimulus of one bit as `BIT_LOW` and `BIT_HIGH` see it (R95, R101): low for `low` cycles, high for `high` cycles,
then the low cycle in which `BIT_HIGH` samples the falling edge; a tick in every cycle. -/
def bitWave (low high : Nat) : List Inputs :=
  List.replicate low (tickAt false) ++ List.replicate high (tickAt true) ++ [tickAt false]

/-- The stimulus of a list of bits, each given by the lengths of its low and its high pulse. -/
def frameWave : List (Nat × Nat) → List Inputs
  | [] => []
  | b :: rest => bitWave b.1 b.2 ++ frameWave rest

/-- R101: with a tick in every cycle, a high pulse of `high` cycles gives `d = high - 1`; R98: the bit is 1 iff
`d > T_BIT`. -/
def bitOfPulse (p : Params) (high : Nat) : Bool := decide (p.tBit < high - 1)

/-- The pulse lengths for which no wait of the bit times out (R101). -/
def pulseFits (p : Params) (b : Nat × Nat) : Bool :=
  decide (b.1 < p.tTimeout) && decide (1 ≤ b.2) && decide (b.2 ≤ p.tTimeout)

/-- Bits shifted into the frame in order of arrival (R99). -/
def shiftAll (f : FrameWord) (bits : List Bool) : FrameWord := bits.foldl shiftIn f

/-- The source's accumulation into a byte, `byte = (byte << 1) | bit` (R99, R103). -/
def byteShift (b : Byte) (bit : Bool) : Byte := (b <<< 1) ||| (BitVec.ofBool bit).setWidth 8

/-- The level each timed wait awaits (R85, R86, R87, R96, R97). -/
def awaitedLevel (c : StateCode) : Bool := c = Code.awaitAckHigh || c = Code.bitLow

/-- The error each timed wait ends with on a timeout (R122, R123). -/
def waitError (c : StateCode) : ResultCode :=
  if c = Code.bitLow ∨ c = Code.bitHigh then Code.frameTimeout else Code.noResponse

/-! ### The invariant of R29 -/

/-- R29 (a): `ST` is one of the nine legal codes. -/
def legalState (r : Regs) : Prop := r.st.toNat ≤ 8

/-- R29 (d). -/
def bitCountFits (r : Regs) : Prop :=
  r.bitcnt.toNat ≤ 40
    ∧ (r.st = Code.bitLow ∨ r.st = Code.bitHigh → r.bitcnt.toNat < 40)
    ∧ (r.st = Code.done → r.bitcnt.toNat = 40)
    ∧ (r.st = Code.startLow ∨ r.st = Code.startSettle ∨ r.st = Code.awaitAckLow ∨ r.st = Code.awaitAckHigh
        ∨ r.st = Code.awaitDataStart → r.bitcnt.toNat = 0)

/-- R29 (e): `FRAME[39:BITCNT] = 0` whenever `BITCNT < 40`. -/
def frameFits (r : Regs) : Prop := r.bitcnt.toNat < 40 → r.frame.toNat < 2 ^ r.bitcnt.toNat

/-- R29: the invariant of every state reachable from the reset state. -/
structure Inv (p : Params) (r : Regs) : Prop where
  /-- (a) -/
  legal : legalState r
  /-- (b) -/
  outLow : r.out = false
  /-- (c) -/
  drivenOnlyInStartLow : r.oe = true ↔ r.st = Code.startLow
  /-- (d) -/
  bitCount : bitCountFits r
  /-- (e) -/
  frameBits : frameFits r
  /-- (f) -/
  noStatusWhileBusy : r.st ≠ Code.idle → r.status = Code.none
  /-- (g) -/
  noFrameUnlessOk : r.st = Code.idle → r.status ≠ Code.ok → r.frame = 0#40
  /-- (h) -/
  legalStatus : r.status.toNat ≤ 4
  /-- (i) -/
  checksumHeld : p.checksumEn = true → r.status = Code.ok → checksumOk r.frame = true

/-- R74 (c): in every wait and delay `TICKS` stays at or below the constant that ends it; `TICKS` fits in `TW` bits. -/
structure TicksInWindow (p : Params) (r : Regs) : Prop where
  fits    : r.ticks < 2 ^ p.tw
  pulse   : r.st = Code.startLow → r.ticks ≤ p.tStart
  settle  : r.st = Code.startSettle → r.ticks ≤ p.tSettle
  waiting : isTimedWait r.st = true → r.ticks ≤ p.tTimeout

/-! ### The transition table of R90 -/

/-- `Fail(e)` as R90 writes it: `STATUS <- e`, `FRAME <- 0`, `BITCNT <- 0`, `OE <- 0`, `ST <- IDLE`; the timer counts. -/
def tableFail (e : ResultCode) (p : Params) (x : Inputs) (r : Regs) : Regs :=
  { r with status := e, frame := 0#40, bitcnt := 0#6, oe := false, st := 0#4, ticks := countTicks p x r.ticks }

/-- "count": no other write. -/
def tableCount (p : Params) (x : Inputs) (r : Regs) : Regs := { r with ticks := countTicks p x r.ticks }

/-- A timed wait's three rows: timeout, level seen, level not seen. -/
def tableWait (p : Params) (x : Inputs) (r : Regs) (level : Bool) (e : ResultCode) (seen : Regs) : Regs :=
  if p.tTimeout ≤ r.ticks then tableFail e p x r
  else if x.lineIn = level then seen
  else tableCount p x r

/-- The complete transition relation of R90 with the recovery of R50 for the codes it does not list, one line per group
of rows, without the machine's commands, Line Driver and TMR: the next registers of a cycle with `rst` = 0. -/
def transitionTable (p : Params) (r : Regs) (x : Inputs) : Regs :=
  if r.st = 0#4 then
    if x.start then { st := 1#4, oe := true, out := false, frame := 0#40, bitcnt := 0#6, status := 0#3, ticks := 0 }
    else tableCount p x r
  else if r.st = 1#4 then
    if r.ticks < p.tStart then tableCount p x r else { r with st := 2#4, oe := false, ticks := 0 }
  else if r.st = 2#4 then
    if r.ticks < p.tSettle then tableCount p x r else { r with st := 3#4, ticks := 0 }
  else if r.st = 3#4 then tableWait p x r false 2#3 { r with st := 4#4, ticks := 0 }
  else if r.st = 4#4 then tableWait p x r true 2#3 { r with st := 5#4, ticks := 0 }
  else if r.st = 5#4 then tableWait p x r false 2#3 { r with st := 6#4, ticks := 0 }
  else if r.st = 6#4 then tableWait p x r true 3#3 { r with st := 7#4, ticks := 0 }
  else if r.st = 7#4 then
    tableWait p x r false 3#3
      (if r.bitcnt = 39#6 then
        { r with st := 8#4, frame := shiftIn r.frame (decide (p.tBit < r.ticks)), bitcnt := 40#6,
                 ticks := countTicks p x r.ticks }
      else
        { r with st := 6#4, frame := shiftIn r.frame (decide (p.tBit < r.ticks)), bitcnt := r.bitcnt + 1#6, ticks := 0 })
  else if r.st = 8#4 then
    if p.checksumEn = false ∨ checksum r.frame = byte4 r.frame then
      { r with st := 0#4, status := 1#3, ticks := countTicks p x r.ticks }
    else { r with st := 0#4, status := 4#3, frame := 0#40, ticks := countTicks p x r.ticks }
  else
    { r with st := 0#4, status := 0#3, frame := 0#40, bitcnt := 0#6, oe := false, ticks := countTicks p x r.ticks }

/-! ### The events that write registers (the column "written by" of R10) -/

/-- `IDLE` accepts a read (R82). -/
def accepts (i : Instr) (s : State) : Prop := i = .idle ∧ s.env.now.start = true

/-- `START_LOW` releases the line (R83). -/
def endsPulse (i : Instr) (s : State) : Prop := i = .startLow ∧ s.cfg.tStart ≤ s.regs.ticks

/-- `START_SETTLE` is over (R84). -/
def endsSettle (i : Instr) (s : State) : Prop := i = .startSettle ∧ s.cfg.tSettle ≤ s.regs.ticks

/-- The timed wait of code `c` times out (R81, R124). -/
def timesOut (i : Instr) (c : StateCode) (s : State) : Prop :=
  encode i = some (.state c) ∧ isTimedWait c = true ∧ s.cfg.tTimeout ≤ s.regs.ticks

/-- The timed wait of code `c` sees the level it awaits, and does not time out (R81). -/
def seesLevel (i : Instr) (c : StateCode) (s : State) : Prop :=
  encode i = some (.state c) ∧ isTimedWait c = true ∧ s.regs.ticks < s.cfg.tTimeout ∧ s.env.now.lineIn = awaitedLevel c

/-- The state after a timed wait that saw its level, by the rows of R90: the next of the handshake, and in the frame
`BIT_HIGH` after `BIT_LOW`, `BIT_LOW` after `BIT_HIGH`, or `DONE` after the 40th bit. -/
def waitSuccessor (c : StateCode) (bitcnt : BitCount) : StateCode :=
  if c = 3#4 then 4#4
  else if c = 4#4 then 5#4
  else if c = 5#4 then 6#4
  else if c = 6#4 then 7#4
  else if bitcnt = 39#6 then 8#4
  else 6#4

/-- `DONE` rejects the frame (R110, R125). -/
def rejects (i : Instr) (s : State) : Prop :=
  i = .done ∧ s.cfg.checksumEn = true ∧ checksum s.regs.frame ≠ byte4 s.regs.frame

/-- `DONE` takes the frame (R110). -/
def takesFrame (i : Instr) (s : State) : Prop :=
  i = .done ∧ (s.cfg.checksumEn = false ∨ checksum s.regs.frame = byte4 s.regs.frame)

/-! ### The length of a read -/

/-- An upper bound on the cycles of a read with a tick in every cycle, the accepting cycle included: R154's longest read,
`T_START + T_SETTLE + 83 * T_TIMEOUT` units, and four cycles of state changes that no wait window counts. -/
def readBound (p : Params) : Nat := p.tStart + p.tSettle + 83 * p.tTimeout + 4

end Sys2Proof.Machine
end

