-- ==== Sys2Proof/Certificates/Slice0/Obligations.lean ====
section
/-! DEFINITION. The statements for the provers. `Code`, `Regs`, `exec`, `step` and the ports are the model's; the terms of
runs, stimuli, the invariant and the table of R90 are Safety's. -/

open Sys2Proof Sys2Proof.Machine

/-! ## Codes and decoding -/

/-- The four code tables (R46, R47, R48, R121) are read and written alike: a code word decodes to an operation exactly
when that operation's code is that word, every legal word (R45) decodes, and the operations without a code are the
three of R47, R48 and R54. -/
def Obligations.DecodeAndEncodeAgree : Prop :=
  (∀ (w : CodeWord) (i : Instr), decode w = .ok i ↔ encode i = some w)
    ∧ (∀ w : CodeWord, w.wf = true ↔ ∃ i, decode w = .ok i)
    ∧ (∀ i : Instr, i.hasCode = true ↔ ∃ w, encode i = some w)

/-- A few words of the code tables, one or more of each format, read by the decoder. That a number's width names its
format, and a number in whole bytes is an S word, is the MODEL's choice (log 16). -/
def Obligations.TableWordsDecode : Prop :=
  decodeTableWord 4 0b0000 = some .idle ∧ decodeTableWord 4 0b0111 = some .bitHigh
    ∧ decodeTableWord 8 0b1000 = some .done ∧ decodeTableWord 4 0b1001 = none
    ∧ decodeTableWord 2 0b01 = some .driveLow ∧ decodeTableWord 2 0b11 = none
    ∧ decodeTableWord 1 0b1 = some .tmrReset ∧ decodeTableWord 3 0b011 = some .resultFrameTimeout

/-- R51: `LCMD` = 3 is never issued and a Line Driver that received it would treat it as `HOLD`; the decoder rejects it by
name, and the reserved `STATUS` codes likewise, which no cycle writes: a status after a step is legal or was there
before it. -/
def Obligations.ReservedCodesAreInert : Prop :=
  (∀ s : State, issuedLine s ≠ 3#2)
    ∧ (∀ r : Regs, lineDriver 3#2 r = lineDriver Code.hold r)
    ∧ decode (.line 3#2) = .error (.reservedLine 3#2)
    ∧ (∀ c : ResultCode, 5 ≤ c.toNat → decode (.result c) = .error (.reservedResult c))
    ∧ (∀ s t : State, step s = .next t → t.regs.status.toNat ≤ 4 ∨ t.regs.status = s.regs.status)

/-! ## The step -/

/-- R55: with `rst` = 0 the operation executed is the one whose code is `ST`; with `rst` = 1 no state operation executes.
What the step adds, `nextCycle`, is the passing of the cycle's inputs, of which `InputsPassAtTheEndOfACycle` speaks. -/
def Obligations.StepRunsTheOperationOfST : Prop :=
  (∀ (s : State) (i : Instr), s.cfg.wf = true → s.env.now.rst = false → decode (.state s.regs.st) = .ok i →
      ∃ t, exec i s = .next t ∧ step s = .next (nextCycle t))
    ∧ ∀ s : State, s.cfg.wf = true → s.env.now.rst = true →
        step s = .next (nextCycle { s with regs := Regs.reset })

/-- The MODEL's feed of inputs (log 4, a DESIGN CHOICE): what every step does after its operation leaves registers and
configuration, counts the cycle, and takes the next inputs of the stimulus, or the free ones where none is laid down. -/
def Obligations.InputsPassAtTheEndOfACycle : Prop :=
  (∀ s : State, (nextCycle s).regs = s.regs ∧ (nextCycle s).cfg = s.cfg
      ∧ (nextCycle s).env.cycle = s.env.cycle + 1)
    ∧ (∀ (s : State) (x : Inputs) (xs : List Inputs), s.env.coming = x :: xs →
        (nextCycle s).env.now = x ∧ (nextCycle s).env.coming = xs)
    ∧ (∀ s : State, s.env.coming = [] →
        (nextCycle s).env.now = Config.freeInputs (s.env.cycle + 1) ∧ (nextCycle s).env.coming = [])

/-- R140, R28: a cycle with `rst` = 1 leaves every register at its reset value, whatever the state and the other inputs
(`start` among them), and the output ports then show nothing; the model's initial state has the same registers. -/
def Obligations.ResetLeavesTheResetState : Prop :=
  (∀ s : State, s.cfg.wf = true → s.env.now.rst = true →
      ∃ t, step s = .next t
        ∧ t.regs = { st := 0#4, frame := 0#40, bitcnt := 0#6, oe := false, out := false, status := 0#3, ticks := 0 }
        ∧ outputs t.regs = { lineOe := false, lineOut := false, busy := false, status := 0#3, valid := false,
                             raw := 0#40, humX10 := 0#12, tempX10 := 0#12 })
    ∧ State.reset.regs =
        { st := 0#4, frame := 0#40, bitcnt := 0#6, oe := false, out := false, status := 0#3, ticks := 0 }

/-- R50: in a cycle with `rst` = 0 and an illegal `ST` code the block releases the line, clears `FRAME`, `BITCNT` and
`STATUS` and goes to `IDLE`, and no rule produces such a code: from a legal `ST` a step gives a legal one. That the
counter counts on and `OUT` stays in that cycle is R73 and R9 (log 13). -/
def Obligations.IllegalStateRecovers : Prop :=
  (∀ s : State, s.cfg.wf = true → s.env.now.rst = false → 9 ≤ s.regs.st.toNat →
      ∃ t, step s = .next t
        ∧ t.regs = { st := 0#4, frame := 0#40, bitcnt := 0#6, oe := false, out := s.regs.out, status := 0#3,
                     ticks := if s.env.now.tickEn then (s.regs.ticks + 1) % 2 ^ s.cfg.tw else s.regs.ticks })
    ∧ (∀ s t : State, step s = .next t → legalState s.regs → legalState t.regs)

/-- The MODEL's choice (log 8), resting on R7's words "or the rules of this spec do not describe it": a configuration
outside the constraints is refused under a name of its own, in every cycle. -/
def Obligations.UndescribedConfigurationIsRefused : Prop :=
  ∀ s : State, s.cfg.wf = false → step s = .refused .configNotDescribed

/-- Every cycle has a next state, for every value of every input in every state, so a run of any length goes on; the
configuration never changes. -/
def Obligations.NoRunEverStops : Prop :=
  ∀ (n : Nat) (s : State), s.cfg.wf = true → ∃ t, runCycles n s = .next t ∧ t.cfg = s.cfg

/-- Every instruction of the code table completes from every state, leaves the configuration, and leaves the inputs
unless it is the caller's request (commands, reads, request and result codes as instructions: logs 9 to 12). -/
def Obligations.EveryInstructionCompletes : Prop :=
  ∀ (i : Instr) (s : State), ∃ t, exec i s = .next t ∧ t.cfg = s.cfg ∧ (i ≠ .readSensor → t.env = s.env)

/-- R90: the complete transition relation. A cycle with `rst` = 0 changes the registers exactly as the table of R90 says,
row by row, and every pair of states not listed is impossible; the codes the table does not list recover (R50). -/
def Obligations.MachineFollowsTheTransitionTable : Prop :=
  ∀ s : State, s.cfg.wf = true → s.env.now.rst = false →
    ∃ t, step s = .next t ∧ t.regs = transitionTable s.cfg s.regs s.env.now ∧ t.cfg = s.cfg

/-- R56: which commands each state operation issues, the whole table. -/
def Obligations.CommandsOfEachOperation : Prop :=
  ∀ s : State, s.env.now.rst = false → s.regs.st.toNat ≤ 8 →
    (issuedLine s, issuedTimer s) =
      if s.regs.st = Code.idle then
        if s.env.now.start then (Code.driveLow, Code.tmrReset) else (Code.hold, Code.tmrCount)
      else if s.regs.st = Code.startLow then
        if s.cfg.tStart ≤ s.regs.ticks then (Code.releaseHigh, Code.tmrReset) else (Code.hold, Code.tmrCount)
      else if s.regs.st = Code.startSettle then
        if s.cfg.tSettle ≤ s.regs.ticks then (Code.hold, Code.tmrReset) else (Code.hold, Code.tmrCount)
      else if s.regs.st = Code.done then (Code.hold, Code.tmrCount)
      else if s.cfg.tTimeout ≤ s.regs.ticks then (Code.releaseHigh, Code.tmrCount)
      else if s.env.now.lineIn = awaitedLevel s.regs.st ∧ ¬ (s.regs.st = Code.bitHigh ∧ s.regs.bitcnt = 39#6) then
        (Code.hold, Code.tmrReset)
      else (Code.hold, Code.tmrCount)

/-- Commands act at the end of the cycle they are issued in and on nothing else: `OE` and `OUT` change only as the Line
Driver makes of `LCMD`, `TICKS` only as TMR makes of `TCMD` (a reset of the block apart). -/
def Obligations.CommandsTakeEffectAtTheEdge : Prop :=
  ∀ s : State, s.cfg.wf = true → s.env.now.rst = false →
    ∃ t, step s = .next t
      ∧ (t.regs.oe, t.regs.out) =
          (if issuedLine s = Code.driveLow then (true, false)
           else if issuedLine s = Code.releaseHigh then (false, s.regs.out)
           else (s.regs.oe, s.regs.out))
      ∧ t.regs.ticks =
          (if issuedTimer s = Code.tmrReset then 0
           else if s.env.now.tickEn then (s.regs.ticks + 1) % 2 ^ s.cfg.tw else s.regs.ticks)

/-! ## The Line Driver and the counter -/

/-- R60: `DRIVE_LOW` (code `LCMD` = 1) writes `OUT` = 0 and `OE` = 1 and nothing else, is idempotent, and is issued by
`IDLE` accepting a read and by nothing else. A command executed as an instruction of its own, with the counter and the
inputs standing still, is the MODEL's reading (log 9); what it does to `OE` and `OUT` in a cycle is
`CommandsTakeEffectAtTheEdge`. -/
def Obligations.DriveLowPullsThePinLow : Prop :=
  decode (.line 1#2) = .ok .driveLow
    ∧ (∀ s : State, exec .driveLow s = .next { s with regs := { s.regs with oe := true, out := false } })
    ∧ (∀ s t : State, exec .driveLow s = .next t → exec .driveLow t = .next t)
    ∧ (∀ s : State, issuedLine s = Code.driveLow ↔
        s.env.now.rst = false ∧ s.regs.st = Code.idle ∧ s.env.now.start = true)

/-- R61: `RELEASE_HIGH` (code `LCMD` = 2) writes `OE` = 0 and nothing else, is idempotent, and is issued by `START_LOW`
when the pulse is over, by `Fail` in a timed wait, and by the recovery from an illegal code. A command executed as an
instruction of its own, with the counter and the inputs standing still, is the MODEL's reading (log 9). -/
def Obligations.ReleaseHighFloatsThePin : Prop :=
  decode (.line 2#2) = .ok .releaseHigh
    ∧ (∀ s : State, exec .releaseHigh s = .next { s with regs := { s.regs with oe := false } })
    ∧ (∀ s t : State, exec .releaseHigh s = .next t → exec .releaseHigh t = .next t)
    ∧ (∀ s : State, issuedLine s = Code.releaseHigh ↔
        s.env.now.rst = false
          ∧ ((s.regs.st = Code.startLow ∧ s.cfg.tStart ≤ s.regs.ticks)
              ∨ (isTimedWait s.regs.st = true ∧ s.cfg.tTimeout ≤ s.regs.ticks)
              ∨ 9 ≤ s.regs.st.toNat))

/-- `HOLD` (code `LCMD` = 0) and the two reads change no register: `READ_LEVEL` returns the level of the line in this
cycle, `TMR_READ` the counter, which is 0 after a reset of the counter (R63, R62, R72; a command or a read executed on
its own is the MODEL's reading, logs 9 and 10). -/
def Obligations.HoldAndReadsChangeNothing : Prop :=
  decode (.line 0#2) = .ok .hold
    ∧ (∀ s : State, exec .hold s = .next s)
    ∧ (∀ s : State, exec .readLevel s = .next s ∧ lineRead s.env.now = s.env.now.lineIn)
    ∧ (∀ s : State, exec .tmrRead s = .next s ∧ timerRead s.regs = s.regs.ticks)
    ∧ (∀ s t : State, exec .tmrReset s = .next t → timerRead t.regs = 0)

/-- R73: counting. In a cycle with `rst` = 0 a timer reset clears the counter whatever the tick; otherwise a tick adds one
modulo 2^TW, silently, and without a tick the counter keeps its value. -/
def Obligations.CounterCountsTicks : Prop :=
  ∀ s t : State, s.env.now.rst = false → step s = .next t →
    t.regs.ticks = if issuedTimer s = Code.tmrReset then 0
      else if s.env.now.tickEn then (s.regs.ticks + 1) % 2 ^ s.cfg.tw else s.regs.ticks

/-- The two timer commands executed as instructions of their own (the MODEL's reading, log 9) do to the counter what R73
says of a cycle that issues them, and write nothing else. -/
def Obligations.TimerCommandsOnTheirOwn : Prop :=
  decode (.timer 0#1) = .ok .tmrCount ∧ decode (.timer 1#1) = .ok .tmrReset
    ∧ (∀ s : State, exec .tmrReset s = .next { s with regs := { s.regs with ticks := 0 } })
    ∧ ∀ s : State, exec .tmrCount s =
        .next { s with regs := { s.regs with
          ticks := if s.env.now.tickEn then (s.regs.ticks + 1) % 2 ^ s.cfg.tw else s.regs.ticks } }

/-! ## The request -/

/-- R54, R80: `READ_SENSOR` raises `start` in the current cycle and changes nothing else (the reading of a pseudo-operation
as one instruction is the MODEL's, log 11); the cycle that follows from `IDLE` accepts the read. -/
def Obligations.ReadSensorStartsARead : Prop :=
  (∀ s : State, exec .readSensor s =
      .next { s with env := { s.env with now := { s.env.now with start := true } } })
    ∧ (∀ s u : State, s.cfg.wf = true → s.env.now.rst = false → s.regs.st = Code.idle →
        exec .readSensor s = .next u →
        ∃ t, step u = .next t ∧ t.regs = { st := Code.startLow, frame := 0#40, bitcnt := 0#6, oe := true,
                                           out := false, status := Code.none, ticks := 0 })

/-- R25: `start` is looked at in `IDLE` only. There, `start` = 1 accepts a read; in every other state a request changes
nothing at all, neither now nor later: it is not latched. -/
def Obligations.StartIsLookedAtInIdleOnly : Prop :=
  (∀ s : State, s.cfg.wf = true → s.env.now.rst = false → s.regs.st = Code.idle → s.env.now.start = true →
      ∃ t, step s = .next t ∧ t.regs.st = Code.startLow)
    ∧ (∀ (s : State) (b : Bool), s.cfg.wf = true → s.env.now.rst = false → s.regs.st ≠ Code.idle →
        step { s with env := { s.env with now := { s.env.now with start := b } } } = step s)

/-! ## The state operations: each is one whole cycle, its next state in full -/

/-- R82: `IDLE` (code 0) accepts a read if `start` = 1 and otherwise changes nothing but the counter. -/
def Obligations.IdleAcceptsARead : Prop :=
  decode (.state 0#4) = .ok .idle
    ∧ ∀ s : State, exec .idle s =
        .next { s with regs :=
          if s.env.now.start then
            { st := Code.startLow, frame := 0#40, bitcnt := 0#6, oe := true, out := false, status := Code.none,
              ticks := 0 }
          else { s.regs with ticks := countTicks s.cfg s.env.now s.regs.ticks } }

/-- R83: `START_LOW` (code 1) holds the line until `TICKS >= T_START`, then releases it and resets the counter. -/
def Obligations.StartLowHoldsTheLine : Prop :=
  decode (.state 1#4) = .ok .startLow
    ∧ ∀ s : State, exec .startLow s =
        .next { s with regs :=
          if s.cfg.tStart ≤ s.regs.ticks then
            { s.regs with st := Code.startSettle, oe := false, ticks := 0 }
          else { s.regs with ticks := countTicks s.cfg s.env.now s.regs.ticks } }

/-- R84: `START_SETTLE` (code 2) waits until `TICKS >= T_SETTLE`, then resets the counter and goes on; it never fails. -/
def Obligations.StartSettleWaits : Prop :=
  decode (.state 2#4) = .ok .startSettle
    ∧ ∀ s : State, exec .startSettle s =
        .next { s with regs :=
          if s.cfg.tSettle ≤ s.regs.ticks then { s.regs with st := Code.awaitAckLow, ticks := 0 }
          else { s.regs with ticks := countTicks s.cfg s.env.now s.regs.ticks } }

/-- R85, R86, R87: the three acknowledgement waits (codes 3, 4, 5): a timeout, tested first, is `NoResponse`; the awaited
level ends the wait with a timer reset; otherwise only the counter moves. -/
def Obligations.AcknowledgementWaits : Prop :=
  decode (.state 3#4) = .ok .awaitAckLow ∧ decode (.state 4#4) = .ok .awaitAckHigh
    ∧ decode (.state 5#4) = .ok .awaitDataStart
    ∧ ∀ s : State,
        let count := countTicks s.cfg s.env.now s.regs.ticks
        let failed : Regs := { st := Code.idle, frame := 0#40, bitcnt := 0#6, oe := false, out := s.regs.out,
                               status := Code.noResponse, ticks := count }
        exec .awaitAckLow s = .next { s with regs :=
            if s.cfg.tTimeout ≤ s.regs.ticks then failed
            else if s.env.now.lineIn = false then { s.regs with st := Code.awaitAckHigh, ticks := 0 }
            else { s.regs with ticks := count } }
          ∧ exec .awaitAckHigh s = .next { s with regs :=
            if s.cfg.tTimeout ≤ s.regs.ticks then failed
            else if s.env.now.lineIn = true then { s.regs with st := Code.awaitDataStart, ticks := 0 }
            else { s.regs with ticks := count } }
          ∧ exec .awaitDataStart s = .next { s with regs :=
            if s.cfg.tTimeout ≤ s.regs.ticks then failed
            else if s.env.now.lineIn = false then { s.regs with st := Code.bitLow, ticks := 0 }
            else { s.regs with ticks := count } }

/-- R96: `BIT_LOW` (code 6) waits for the line to be high, with `FrameTimeout`; `FRAME` and `BITCNT` are touched by the
timeout only. -/
def Obligations.BitLowWaitsForHigh : Prop :=
  decode (.state 6#4) = .ok .bitLow
    ∧ ∀ s : State, exec .bitLow s =
        .next { s with regs :=
          if s.cfg.tTimeout ≤ s.regs.ticks then
            { st := Code.idle, frame := 0#40, bitcnt := 0#6, oe := false, out := s.regs.out,
              status := Code.frameTimeout, ticks := countTicks s.cfg s.env.now s.regs.ticks }
          else if s.env.now.lineIn = true then { s.regs with st := Code.bitHigh, ticks := 0 }
          else { s.regs with ticks := countTicks s.cfg s.env.now s.regs.ticks } }

/-- R97, R98, R99, R100: `BIT_HIGH` (code 7) waits for the line to be low, with `FrameTimeout` tested first; the sample,
the classification (`TICKS > T_BIT`), the shift and the count are one cycle, and the 40th bit goes to `DONE` without a
timer reset. -/
def Obligations.BitHighDecodesABit : Prop :=
  decode (.state 7#4) = .ok .bitHigh
    ∧ ∀ s : State, exec .bitHigh s =
        .next { s with regs :=
          if s.cfg.tTimeout ≤ s.regs.ticks then
            { st := Code.idle, frame := 0#40, bitcnt := 0#6, oe := false, out := s.regs.out,
              status := Code.frameTimeout, ticks := countTicks s.cfg s.env.now s.regs.ticks }
          else if s.env.now.lineIn = false then
            { s.regs with
              frame := (s.regs.frame <<< 1) ||| (if s.cfg.tBit < s.regs.ticks then 1#40 else 0#40)
              bitcnt := s.regs.bitcnt + 1#6
              st := if s.regs.bitcnt = 39#6 then Code.done else Code.bitLow
              ticks := if s.regs.bitcnt = 39#6 then countTicks s.cfg s.env.now s.regs.ticks else 0 }
          else { s.regs with ticks := countTicks s.cfg s.env.now s.regs.ticks } }

/-- R110, R111: `DONE` (code 8) ends the read in one cycle. With `CHECKSUM_EN` = 1 a frame whose fifth byte is not the sum
of the first four modulo 256 is rejected and cleared; otherwise the read is `OK` and the frame is kept. The bytes are
written here as quotients of the 40-bit number (R33). -/
def Obligations.DoneChecksTheFrame : Prop :=
  decode (.state 8#4) = .ok .done
    ∧ ∀ s : State,
        let f := s.regs.frame.toNat
        let sum := f / 2 ^ 32 + f / 2 ^ 24 % 256 + f / 2 ^ 16 % 256 + f / 2 ^ 8 % 256
        exec .done s =
          .next { s with regs :=
            if s.cfg.checksumEn = true ∧ sum % 256 ≠ f % 256 then
              { s.regs with st := Code.idle, status := Code.checksumMismatch, frame := 0#40,
                            ticks := countTicks s.cfg s.env.now s.regs.ticks }
            else
              { s.regs with st := Code.idle, status := Code.ok,
                            ticks := countTicks s.cfg s.env.now s.regs.ticks } }

/-! ## Errors and results -/

/-- R124: `Fail(e)`, the entry of the two timeout errors. A timed wait that times out takes it with its own error, the
counter counting on and whatever the line shows; releasing the line there changes nothing in a reachable state. -/
def Obligations.FailEntersIdle : Prop :=
  (∀ s : State, s.cfg.wf = true → s.env.now.rst = false → isTimedWait s.regs.st = true →
      s.cfg.tTimeout ≤ s.regs.ticks →
      ∃ t, step s = .next t
        ∧ t.regs = { s.regs with status := waitError s.regs.st, frame := 0#40, bitcnt := 0#6, oe := false,
                                 st := Code.idle, ticks := countTicks s.cfg s.env.now s.regs.ticks })
    ∧ ∀ s : State, Inv s.cfg s.regs → isTimedWait s.regs.st = true → s.regs.oe = false

/-- The result codes `NORESPONSE` and `FRAMETIMEOUT` read as operations (the MODEL's reading, log 12): each is the entry
`Fail(e)` of its error, without the counter's part of the cycle. -/
def Obligations.TimeoutCodesAsOperations : Prop :=
  decode (.result 2#3) = .ok .resultNoResponse ∧ decode (.result 3#3) = .ok .resultFrameTimeout
    ∧ (∀ s : State, exec .resultNoResponse s =
        .next { s with regs := { s.regs with status := Code.noResponse, frame := 0#40, bitcnt := 0#6, oe := false,
                                             st := Code.idle } })
    ∧ ∀ s : State, exec .resultFrameTimeout s =
        .next { s with regs := { s.regs with status := Code.frameTimeout, frame := 0#40, bitcnt := 0#6, oe := false,
                                             st := Code.idle } }

/-- The other result codes of R121 read as operations, the event each records (the MODEL's reading, log 12): `NONE` clears
`STATUS`; `OK` is the successful end of R110; `CHECKSUMMISMATCH` is the entry of R125, which leaves `BITCNT` and `OE`.
Their numbers are R121's. -/
def Obligations.OtherResultCodes : Prop :=
  decode (.result 0#3) = .ok .resultNone ∧ decode (.result 1#3) = .ok .resultOk
    ∧ decode (.result 4#3) = .ok .resultChecksumMismatch
    ∧ (∀ s : State, exec .resultNone s = .next { s with regs := { s.regs with status := Code.none } })
    ∧ (∀ s : State, exec .resultOk s =
        .next { s with regs := { s.regs with status := Code.ok, st := Code.idle } })
    ∧ (∀ s : State, exec .resultChecksumMismatch s =
        .next { s with regs := { s.regs with status := Code.checksumMismatch, frame := 0#40, st := Code.idle } })

/-- R104: no partial output. A timeout in `BIT_LOW` or `BIT_HIGH`, at any bit index, gives `FrameTimeout`, clears the frame
and the count, and the result ports show zero. -/
def Obligations.PartialFrameIsDiscarded : Prop :=
  ∀ s : State, s.cfg.wf = true → s.env.now.rst = false →
    s.regs.st = Code.bitLow ∨ s.regs.st = Code.bitHigh → s.cfg.tTimeout ≤ s.regs.ticks →
    ∃ t, step s = .next t ∧ t.regs.st = Code.idle ∧ t.regs.status = Code.frameTimeout
      ∧ t.regs.frame = 0#40 ∧ t.regs.bitcnt = 0#6
      ∧ (outputs t.regs).valid = false ∧ (outputs t.regs).raw = 0#40
      ∧ (outputs t.regs).humX10 = 0#12 ∧ (outputs t.regs).tempX10 = 0#12

/-- R126: simultaneous events, highest first: reset; in a timed wait the timeout, whatever the line; the awaited level;
otherwise the wait repeats. -/
def Obligations.PriorityWithinACycle : Prop :=
  ∀ s : State, s.cfg.wf = true → isTimedWait s.regs.st = true →
    ∃ t, step s = .next t
      ∧ (s.env.now.rst = true → t.regs = Regs.reset)
      ∧ (s.env.now.rst = false → s.cfg.tTimeout ≤ s.regs.ticks →
          t.regs.st = Code.idle ∧ t.regs.status = waitError s.regs.st)
      ∧ (s.env.now.rst = false → s.regs.ticks < s.cfg.tTimeout →
          s.env.now.lineIn = awaitedLevel s.regs.st → t.regs.st ≠ s.regs.st ∧ t.regs.status = s.regs.status)
      ∧ (s.env.now.rst = false → s.regs.ticks < s.cfg.tTimeout →
          s.env.now.lineIn ≠ awaitedLevel s.regs.st →
          t.regs = { s.regs with ticks := countTicks s.cfg s.env.now s.regs.ticks })

/-! ## Invariants -/

/-- The reset state satisfies the invariant of R29 and the wait windows. -/
def Obligations.ResetSatisfiesTheInvariants : Prop :=
  Inv State.reset.cfg State.reset.regs ∧ TicksInWindow State.reset.cfg State.reset.regs ∧ State.reset.cfg.wf = true

/-- R29: every step keeps the invariant (a) to (i), for every configuration and every input. -/
def Obligations.EveryStepKeepsTheInvariant : Prop :=
  ∀ s t : State, Inv s.cfg s.regs → step s = .next t → Inv t.cfg t.regs

/-- R29: every state that a run of any length reaches from the reset registers satisfies the invariant, for every
configuration of R7 and whatever the inputs are. -/
def Obligations.ReachableStatesSatisfyTheInvariant : Prop :=
  ∀ (n : Nat) (s t : State), s.cfg.wf = true → s.regs = Regs.reset → runCycles n s = .next t → Inv t.cfg t.regs

/-- R74 (c): every step keeps `TICKS` inside the window of the current wait or delay, so no wait sees the counter wrap. -/
def Obligations.EveryStepKeepsTicksInWindow : Prop :=
  ∀ s t : State, TicksInWindow s.cfg s.regs → step s = .next t → TicksInWindow t.cfg t.regs

/-- Which operations may write which register, in which event and to what (the column "written by" of R10): an operation
that a clause does not name, or names in another event, leaves the clause's register as it was, for every state and all
22 instructions (commands and result codes as instructions of their own: the MODEL's reading, logs 9 and 12). -/
def Obligations.OnlyTheNamedOperationsWrite : Prop :=
  ∀ (i : Instr) (s t : State), exec i s = .next t →
    let failCode := i = .resultNoResponse ∨ i = .resultFrameTimeout
    (t.regs.out ≠ s.regs.out → t.regs.out = false ∧ (i = .driveLow ∨ accepts i s))
      ∧ (t.regs.oe ≠ s.regs.oe →
          (t.regs.oe = true ∧ (i = .driveLow ∨ accepts i s))
            ∨ (t.regs.oe = false ∧ (i = .releaseHigh ∨ endsPulse i s ∨ (∃ c, timesOut i c s) ∨ failCode)))
      ∧ (t.regs.frame ≠ s.regs.frame →
          (t.regs.frame = 0#40
              ∧ (accepts i s ∨ (∃ c, timesOut i c s) ∨ rejects i s ∨ failCode ∨ i = .resultChecksumMismatch))
            ∨ (t.regs.frame = shiftIn s.regs.frame (decide (s.cfg.tBit < s.regs.ticks)) ∧ seesLevel i Code.bitHigh s))
      ∧ (t.regs.bitcnt ≠ s.regs.bitcnt →
          (t.regs.bitcnt = 0#6 ∧ (accepts i s ∨ (∃ c, timesOut i c s) ∨ failCode))
            ∨ (t.regs.bitcnt = s.regs.bitcnt + 1#6 ∧ seesLevel i Code.bitHigh s))
      ∧ (t.regs.status ≠ s.regs.status →
          (t.regs.status = Code.none ∧ (accepts i s ∨ i = .resultNone))
            ∨ (t.regs.status = Code.ok ∧ (takesFrame i s ∨ i = .resultOk))
            ∨ (t.regs.status = Code.checksumMismatch ∧ (rejects i s ∨ i = .resultChecksumMismatch))
            ∨ (∃ c, timesOut i c s ∧ t.regs.status = waitError c)
            ∨ (t.regs.status = Code.noResponse ∧ i = .resultNoResponse)
            ∨ (t.regs.status = Code.frameTimeout ∧ i = .resultFrameTimeout))
      ∧ (t.regs.ticks ≠ s.regs.ticks →
          (t.regs.ticks = countTicks s.cfg s.env.now s.regs.ticks ∧ (i.isStateOp = true ∨ i = .tmrCount))
            ∨ (t.regs.ticks = 0 ∧ (i = .tmrReset ∨ accepts i s ∨ endsPulse i s ∨ endsSettle i s
                ∨ ∃ c, seesLevel i c s ∧ ¬ (c = Code.bitHigh ∧ s.regs.bitcnt = 39#6))))
      ∧ (t.regs.st ≠ s.regs.st →
          (t.regs.st = Code.startLow ∧ accepts i s) ∨ (t.regs.st = Code.startSettle ∧ endsPulse i s)
            ∨ (t.regs.st = Code.awaitAckLow ∧ endsSettle i s)
            ∨ (∃ c, seesLevel i c s ∧ t.regs.st = waitSuccessor c s.regs.bitcnt)
            ∨ (t.regs.st = Code.idle ∧ ((∃ c, timesOut i c s) ∨ i = .done ∨ failCode ∨ i = .resultOk
                ∨ i = .resultChecksumMismatch)))

/-! ## What does not influence what -/

/-- R26: outside the five sampling states the value of `line_in` has no effect on any register. -/
def Obligations.LineIsReadInSamplingStatesOnly : Prop :=
  ∀ (s : State) (b : Bool), phase s.regs.st ≠ some .sample →
    step { s with env := { s.env with now := { s.env.now with lineIn := b } } } = step s

/-- R27: no state leaks between reads. Two machines of one configuration that accept a read under the same inputs are in
the same state from the next cycle on, whatever happened before. -/
def Obligations.ReadsDoNotLeak : Prop :=
  ∀ (s u : State) (n : Nat), s.cfg.wf = true → s.cfg = u.cfg → s.env = u.env → s.env.now.rst = false →
    s.env.now.start = true → s.regs.st = Code.idle → u.regs.st = Code.idle →
    runCycles (n + 1) s = runCycles (n + 1) u

/-- R20: no state operation reads `STATUS`: whatever it holds, a step does the same to every other register, to the
configuration and to the inputs. -/
def Obligations.StatusInfluencesNothing : Prop :=
  ∀ (s : State) (v : ResultCode), s.cfg.wf = true →
    ∃ t u, step s = .next t ∧ step { s with regs := { s.regs with status := v } } = .next u
      ∧ u = { t with regs := { t.regs with status := u.regs.status } }

/-! ## Ports and the frame -/

/-- R113: the result ports. The data are gated by `valid = (STATUS == OK)`; so in a reachable state nothing is shown while
a read is in progress, and nothing after a failure. The other ports of R23 are the registers themselves, and `busy` is
R21's. -/
def Obligations.DataPortsShowAFinishedReadOnly : Prop :=
  (∀ r : Regs, (outputs r).lineOe = r.oe ∧ (outputs r).lineOut = r.out ∧ tmrValue r = r.ticks
      ∧ ((outputs r).busy = true ↔ r.st ≠ Code.idle))
    ∧ (∀ r : Regs, r.status = Code.ok →
      (outputs r).valid = true ∧ (outputs r).raw = r.frame ∧ (outputs r).humX10 = humX10 r.frame
        ∧ (outputs r).tempX10 = tempX10 r.frame ∧ (outputs r).status = r.status)
    ∧ (∀ r : Regs, r.status ≠ Code.ok →
        (outputs r).valid = false ∧ (outputs r).raw = 0#40 ∧ (outputs r).humX10 = 0#12 ∧ (outputs r).tempX10 = 0#12
          ∧ (outputs r).status = r.status)
    ∧ (∀ (p : Params) (r : Regs), Inv p r → (outputs r).busy = true →
        (outputs r).valid = false ∧ (outputs r).status = Code.none ∧ (outputs r).raw = 0#40
          ∧ (outputs r).humX10 = 0#12 ∧ (outputs r).tempX10 = 0#12)

/-- R112: the conversion is exact. `HUM_X10` and `TEMP_X10` are ten times the integer byte plus the fractional byte, both
unsigned, at most 2805, without truncation on 12 bits; the bytes are quotients of the 40-bit number (R33). -/
def Obligations.ReadingIsExactTenths : Prop :=
  ∀ f : FrameWord,
    (humX10 f).toNat = 10 * (f.toNat / 2 ^ 32) + f.toNat / 2 ^ 24 % 256
      ∧ (tempX10 f).toNat = 10 * (f.toNat / 2 ^ 16 % 256) + f.toNat / 2 ^ 8 % 256
      ∧ (humX10 f).toNat ≤ 2805 ∧ (tempX10 f).toNat ≤ 2805

/-- R31, R42: SWPE never drives the pin high, and it samples only while it does not drive: in a reachable state the pin is
low or the sensor's, and in every sampling state it is the sensor's. -/
def Obligations.PinIsNeverDrivenHigh : Prop :=
  ∀ (p : Params) (r : Regs) (sensor : Bool), Inv p r →
    (r.oe = true → pinLevel r sensor = false)
      ∧ (r.oe = false → pinLevel r sensor = sensor)
      ∧ (phase r.st = some .sample → pinLevel r sensor = sensor)
      ∧ (r.oe = true ↔ phase r.st = some .pull)

/-- R103: the 40-bit shifter and the source's five byte accumulators agree. After 40 bits `FRAME[39-k]` is the `k`-th bit
that arrived, and byte `j` of the frame is what `byte = (byte << 1) | bit` gives of bits `8j` to `8j + 7`, from any
initial frame and any initial byte. -/
def Obligations.ShifterAccumulatesFiveBytes : Prop :=
  ∀ (f : FrameWord) (b : Byte) (bits : List Bool), bits.length = 40 →
    (∀ k, k < 40 → bits[k]? = some ((shiftAll f bits).getLsbD (39 - k)))
      ∧ (∀ j, j < 5 →
          (shiftAll f bits).extractLsb' (32 - 8 * j) 8 = ((bits.drop (8 * j)).take 8).foldl byteShift b)

/-! ## Runs -/

/-- R101, R98: one bit on the wire. With a tick in every cycle, from the first cycle of `BIT_LOW`, a low pulse of `low`
cycles and a high pulse of `high` cycles, neither long enough to time out, decode in `low + high + 1` cycles to the bit
`high - 1 > T_BIT`, shifted into the frame and counted. -/
def Obligations.OneBitDecodesByPulseLength : Prop :=
  ∀ (s : State) (low high : Nat) (rest : List Inputs), s.cfg.wf = true → pulseFits s.cfg (low, high) = true →
    s.regs.st = Code.bitLow → s.regs.ticks = 0 →
    ∃ t, runCycles (low + high + 1) (s.fed (bitWave low high ++ rest)) = .next t ∧ t.cfg = s.cfg
      ∧ t.regs = { s.regs with
          frame := shiftIn s.regs.frame (decide (s.cfg.tBit < high - 1))
          bitcnt := s.regs.bitcnt + 1#6
          st := if s.regs.bitcnt = 39#6 then Code.done else Code.bitLow
          ticks := if s.regs.bitcnt = 39#6 then high else 0 }

/-- P3 of the source, from the first `BIT_LOW` on: forty pulses that do not time out, with a tick in every cycle, fill the
frame with their bits, most significant first, and one cycle later the read ends: `OK` with the exact Reading on the
ports, or, where `CHECKSUM_EN` = 1 and the checksum fails, `ChecksumMismatch` with nothing on them. -/
def Obligations.FortyPulsesGiveTheReading : Prop :=
  ∀ (s : State) (bits : List (Nat × Nat)) (x : Inputs) (rest : List Inputs), s.cfg.wf = true → bits.length = 40 →
    (∀ b ∈ bits, pulseFits s.cfg b = true) → s.regs.st = Code.bitLow → s.regs.ticks = 0 → s.regs.bitcnt = 0#6 →
    x.rst = false →
    let f := shiftAll s.regs.frame (bits.map fun b => bitOfPulse s.cfg b.2)
    (∃ t, runCycles (frameWave bits).length (s.fed (frameWave bits ++ x :: rest)) = .next t
        ∧ t.regs.st = Code.done ∧ t.regs.frame = f ∧ t.regs.bitcnt = 40#6 ∧ t.regs.status = s.regs.status)
      ∧ ∃ t, runCycles ((frameWave bits).length + 1) (s.fed (frameWave bits ++ x :: rest)) = .next t
        ∧ t.regs.st = Code.idle
        ∧ (s.cfg.checksumEn = false ∨ checksum f = byte4 f →
            (outputs t.regs).status = Code.ok ∧ (outputs t.regs).raw = f
              ∧ (outputs t.regs).humX10 = humX10 f ∧ (outputs t.regs).tempX10 = tempX10 f)
        ∧ (s.cfg.checksumEn = true → checksum f ≠ byte4 f →
            (outputs t.regs).status = Code.checksumMismatch ∧ (outputs t.regs).valid = false
              ∧ (outputs t.regs).raw = 0#40 ∧ t.regs.frame = 0#40)

/-- P1 of the source, with equality (R79): in a timed wait entered with `TICKS` = 0, a line that never shows the awaited
level, with a tick in every cycle, keeps the block in the wait for cycles 0 to `T_TIMEOUT` and then ends the read with
that wait's error. -/
def Obligations.StuckLineTimesOutExactly : Prop :=
  ∀ (s : State) (rest : List Inputs), s.cfg.wf = true → isTimedWait s.regs.st = true → s.regs.ticks = 0 →
    let stuck := List.replicate (s.cfg.tTimeout + 1) (tickAt (!awaitedLevel s.regs.st))
    (∀ k, k ≤ s.cfg.tTimeout →
        ∃ t, runCycles k (s.fed (stuck ++ rest)) = .next t ∧ t.regs = { s.regs with ticks := k })
      ∧ ∃ t, runCycles (s.cfg.tTimeout + 1) (s.fed (stuck ++ rest)) = .next t
        ∧ t.regs = { st := Code.idle, frame := 0#40, bitcnt := 0#6, oe := false, out := s.regs.out,
                     status := waitError s.regs.st, ticks := (s.cfg.tTimeout + 1) % 2 ^ s.cfg.tw }

/-- R79: every timed wait is bounded, whatever the line does: with a tick in every cycle the block leaves the wait within
`T_TIMEOUT + 1 - TICKS` cycles. -/
def Obligations.EveryTimedWaitIsBounded : Prop :=
  ∀ (s : State) (l : List Inputs), s.cfg.wf = true → isTimedWait s.regs.st = true →
    s.regs.ticks ≤ s.cfg.tTimeout → ticking l → s.cfg.tTimeout + 1 ≤ l.length →
    ∃ k t, 1 ≤ k ∧ k ≤ s.cfg.tTimeout + 1 - s.regs.ticks ∧ runCycles k (s.fed l) = .next t
      ∧ t.regs.st ≠ s.regs.st

/-- R80, R154: a read that is accepted runs through to `IDLE` within the bound, whatever the line and the caller do, with
a tick in every cycle; until then the block is busy and shows nothing, and it ends in one of the four ways with the
line released. -/
def Obligations.EveryReadTerminates : Prop :=
  ∀ (s : State) (x : Inputs) (l : List Inputs), s.cfg.wf = true → s.regs.st = Code.idle → x.start = true →
    ticking (x :: l) → readBound s.cfg ≤ l.length →
    ∃ n t, 1 < n ∧ n ≤ readBound s.cfg ∧ runCycles n (s.fed (x :: l)) = .next t
      ∧ t.regs.st = Code.idle ∧ t.regs.oe = false
      ∧ (t.regs.status = Code.ok ∨ t.regs.status = Code.noResponse ∨ t.regs.status = Code.frameTimeout
          ∨ t.regs.status = Code.checksumMismatch)
      ∧ ∀ m, 0 < m → m < n → ∃ u, runCycles m (s.fed (x :: l)) = .next u ∧ busy u.regs = true
          ∧ u.regs.status = Code.none

/-- R91 for a timebase with a tick in every cycle: after acceptance the line is driven low for exactly `T_START + 1`
cycles (the counter showing 0 to `T_START`), then released. -/
def Obligations.StartPulseHasItsLength : Prop :=
  ∀ (s : State) (x : Inputs) (l : List Inputs), s.cfg.wf = true → s.regs.st = Code.idle → x.start = true →
    ticking (x :: l) → s.cfg.tStart + 2 ≤ l.length →
    (∀ k, k ≤ s.cfg.tStart →
        ∃ t, runCycles (k + 1) (s.fed (x :: l)) = .next t
          ∧ t.regs = { st := Code.startLow, frame := 0#40, bitcnt := 0#6, oe := true, out := false,
                       status := Code.none, ticks := k })
      ∧ ∃ t, runCycles (s.cfg.tStart + 2) (s.fed (x :: l)) = .next t
        ∧ t.regs = { st := Code.startSettle, frame := 0#40, bitcnt := 0#6, oe := false, out := false,
                     status := Code.none, ticks := 0 }

/-- R78, R115: in `IDLE` without a request the block stays as it is for any number of cycles, but for the counter, so the
result stands on the ports until the next read is accepted. -/
def Obligations.IdleHoldsTheResult : Prop :=
  ∀ (s : State) (l : List Inputs) (n : Nat), s.cfg.wf = true → s.regs.st = Code.idle → quiet l → n ≤ l.length →
    ∃ t, runCycles n (s.fed l) = .next t ∧ t.regs = { s.regs with ticks := t.regs.ticks }
      ∧ outputs t.regs = outputs s.regs

/-- R150: with `start` held at 1 the result of a finished read is on the ports for one cycle only, and the next read begins
at once: for a read that ends in `DONE`, and for one that ends in a timeout. -/
def Obligations.HeldStartShowsTheResultOnce : Prop :=
  ∀ (s : State) (x y : Inputs) (rest : List Inputs), s.cfg.wf = true → x.rst = false → y.rst = false →
    x.start = true → y.start = true →
    s.regs.st = Code.done ∨ (isTimedWait s.regs.st = true ∧ s.cfg.tTimeout ≤ s.regs.ticks) →
    (∃ t, runCycles 1 (s.fed (x :: y :: rest)) = .next t ∧ t.regs.st = Code.idle
        ∧ (s.regs.st = Code.done →
            ((outputs t.regs).status = Code.ok ∧ (outputs t.regs).raw = s.regs.frame)
              ∨ ((outputs t.regs).status = Code.checksumMismatch ∧ (outputs t.regs).raw = 0#40))
        ∧ (isTimedWait s.regs.st = true →
            (outputs t.regs).status = waitError s.regs.st ∧ (outputs t.regs).raw = 0#40))
      ∧ ∃ t, runCycles 2 (s.fed (x :: y :: rest)) = .next t ∧ t.regs.st = Code.startLow
        ∧ (outputs t.regs).busy = true ∧ (outputs t.regs).status = Code.none ∧ (outputs t.regs).valid = false
        ∧ t.regs.frame = 0#40
end

