-- ==== Sys2Proof/Laws/State.lean ====
section
/-! SUPPORT. One lemma per field per update of the state, true by unfolding: later proofs never unfold an update. -/

namespace Sys2Proof.Machine

variable (s : State) (r : Regs) (p : Params) (x : Inputs) (c : Ctl) (f : Control)

@[simp] theorem keep_lcmd : (keep r).lcmd = Code.hold := rfl
@[simp] theorem keep_tcmd : (keep r).tcmd = Code.tmrCount := rfl
@[simp] theorem keep_st : (keep r).st = r.st := rfl
@[simp] theorem keep_frame : (keep r).frame = r.frame := rfl
@[simp] theorem keep_bitcnt : (keep r).bitcnt = r.bitcnt := rfl
@[simp] theorem keep_status : (keep r).status = r.status := rfl

@[simp] theorem engine_st : (engine c r).st = c.st := rfl
@[simp] theorem engine_frame : (engine c r).frame = c.frame := rfl
@[simp] theorem engine_bitcnt : (engine c r).bitcnt = c.bitcnt := rfl
@[simp] theorem engine_status : (engine c r).status = c.status := rfl
@[simp] theorem engine_oe : (engine c r).oe = r.oe := rfl
@[simp] theorem engine_out : (engine c r).out = r.out := rfl
@[simp] theorem engine_ticks : (engine c r).ticks = r.ticks := rfl

@[simp] theorem timer_st (t : TimerCode) : (timer p x t r).st = r.st := rfl
@[simp] theorem timer_frame (t : TimerCode) : (timer p x t r).frame = r.frame := rfl
@[simp] theorem timer_bitcnt (t : TimerCode) : (timer p x t r).bitcnt = r.bitcnt := rfl
@[simp] theorem timer_status (t : TimerCode) : (timer p x t r).status = r.status := rfl
@[simp] theorem timer_oe (t : TimerCode) : (timer p x t r).oe = r.oe := rfl
@[simp] theorem timer_out (t : TimerCode) : (timer p x t r).out = r.out := rfl

@[simp] theorem runControl_cfg : (runControl f s).cfg = s.cfg := rfl
@[simp] theorem runControl_env : (runControl f s).env = s.env := rfl
@[simp] theorem runControl_regs :
    (runControl f s).regs = clockEdge s.cfg s.env.now (f s.cfg s.regs s.env.now) s.regs := rfl

@[simp] theorem applyWrites_cfg : (applyWrites c s).cfg = s.cfg := rfl
@[simp] theorem applyWrites_env : (applyWrites c s).env = s.env := rfl
@[simp] theorem applyWrites_regs : (applyWrites c s).regs = lineDriver c.lcmd (engine c s.regs) := rfl

@[simp] theorem resetCycle_regs : (resetCycle s).regs = Regs.reset := rfl
@[simp] theorem resetCycle_cfg : (resetCycle s).cfg = s.cfg := rfl
@[simp] theorem resetCycle_env : (resetCycle s).env = s.env := rfl

@[simp] theorem raiseStart_regs : (raiseStart s).regs = s.regs := rfl
@[simp] theorem raiseStart_cfg : (raiseStart s).cfg = s.cfg := rfl
@[simp] theorem raiseStart_start : (raiseStart s).env.now.start = true := rfl
@[simp] theorem raiseStart_rst : (raiseStart s).env.now.rst = s.env.now.rst := rfl
@[simp] theorem raiseStart_lineIn : (raiseStart s).env.now.lineIn = s.env.now.lineIn := rfl
@[simp] theorem raiseStart_tickEn : (raiseStart s).env.now.tickEn = s.env.now.tickEn := rfl
@[simp] theorem raiseStart_coming : (raiseStart s).env.coming = s.env.coming := rfl

@[simp] theorem nextCycle_regs : (nextCycle s).regs = s.regs := by
  unfold nextCycle; split <;> rfl

@[simp] theorem nextCycle_cfg : (nextCycle s).cfg = s.cfg := by
  unfold nextCycle; split <;> rfl

@[simp] theorem nextCycle_cycle : (nextCycle s).env.cycle = s.env.cycle + 1 := by
  unfold nextCycle; split <;> rfl

theorem nextCycle_cons {s : State} {y : Inputs} {ys : List Inputs} (h : s.env.coming = y :: ys) :
    nextCycle s = { s with env := { now := y, coming := ys, cycle := s.env.cycle + 1 } } := by
  simp [nextCycle, h]

theorem nextCycle_nil {s : State} (h : s.env.coming = []) :
    nextCycle s =
      { s with env := { now := Config.freeInputs (s.env.cycle + 1), coming := [], cycle := s.env.cycle + 1 } } := by
  simp [nextCycle, h]

end Sys2Proof.Machine
end

