-- ==== Sys2Proof/Laws/Ops.lean ====
section
/-! SUPPORT. What each shared operation can do, said once: the Line Driver, TMR, the clock edge, the timed wait, the frame
shifter's small facts, and the case split over `ST`. -/

namespace Sys2Proof.Machine

/-! ### The reads and the conditions -/

@[simp] theorem timedOut_iff (p : Params) (r : Regs) : timedOut p r = true ↔ p.tTimeout ≤ r.ticks :=
  decide_eq_true_iff
@[simp] theorem startOver_iff (p : Params) (r : Regs) : startOver p r = true ↔ p.tStart ≤ r.ticks :=
  decide_eq_true_iff
@[simp] theorem settleOver_iff (p : Params) (r : Regs) : settleOver p r = true ↔ p.tSettle ≤ r.ticks :=
  decide_eq_true_iff
@[simp] theorem longPulse_iff (p : Params) (r : Regs) : longPulse p r = true ↔ p.tBit < r.ticks :=
  decide_eq_true_iff
@[simp] theorem busy_iff (r : Regs) : busy r = true ↔ r.st ≠ Code.idle := by simp [busy]
@[simp] theorem valid_iff (r : Regs) : valid r = true ↔ r.status = Code.ok := by simp [valid]

/-! ### The Line Driver and TMR -/

@[simp] theorem lineDriver_hold (r : Regs) : lineDriver Code.hold r = r := rfl
@[simp] theorem lineDriver_reserved (r : Regs) : lineDriver 3#2 r = r := rfl
@[simp] theorem lineDriver_driveLow (r : Regs) :
    lineDriver Code.driveLow r = { r with oe := true, out := false } := rfl
@[simp] theorem lineDriver_releaseHigh (r : Regs) : lineDriver Code.releaseHigh r = { r with oe := false } := rfl

@[simp] theorem timer_reset (p : Params) (x : Inputs) (r : Regs) :
    timer p x Code.tmrReset r = { r with ticks := 0 } := rfl
@[simp] theorem timer_count (p : Params) (x : Inputs) (r : Regs) :
    timer p x Code.tmrCount r = { r with ticks := countTicks p x r.ticks } := rfl

theorem countTicks_lt {p : Params} {x : Inputs} {n : Nat} (h : n < 2 ^ p.tw) : countTicks p x n < 2 ^ p.tw := by
  unfold countTicks
  split
  · exact Nat.mod_lt _ (Nat.two_pow_pos _)
  · exact h

theorem countTicks_le {p : Params} {x : Inputs} {n m : Nat} (h : n < m) : countTicks p x n ≤ m := by
  unfold countTicks
  split
  · exact le_trans (Nat.mod_le _ _) h
  · exact h.le

/-- Inside a window that fits in `TW` bits a tick adds one. -/
theorem countTicks_tick {p : Params} {x : Inputs} {n m : Nat} (hx : x.tickEn = true) (h : n < m)
    (hm : m < 2 ^ p.tw) : countTicks p x n = n + 1 := by
  simp [countTicks, hx, Nat.mod_eq_of_lt (lt_of_le_of_lt (Nat.succ_le_of_lt h) hm)]

/-! ### The clock edge -/

/-- The clock edge of a cycle without a line command, in one record. -/
theorem clockEdge_hold {p : Params} {x : Inputs} {c : Ctl} {r : Regs} (h : c.lcmd = Code.hold) :
    clockEdge p x c r =
      { st := c.st, frame := c.frame, bitcnt := c.bitcnt, oe := r.oe, out := r.out, status := c.status,
        ticks := if c.tcmd = Code.tmrReset then 0 else countTicks p x r.ticks } := by
  simp [clockEdge, h, timer, engine]

/-- The clock edge of a cycle that releases the line. -/
theorem clockEdge_release {p : Params} {x : Inputs} {c : Ctl} {r : Regs} (h : c.lcmd = Code.releaseHigh) :
    clockEdge p x c r =
      { st := c.st, frame := c.frame, bitcnt := c.bitcnt, oe := false, out := r.out, status := c.status,
        ticks := if c.tcmd = Code.tmrReset then 0 else countTicks p x r.ticks } := by
  simp [clockEdge, h, timer, engine]

/-- A cycle in which nothing is written: only the counter moves. -/
theorem clockEdge_keep (p : Params) (x : Inputs) (r : Regs) :
    clockEdge p x (keep r) r = { r with ticks := countTicks p x r.ticks } := rfl

/-- `Fail(e)` at the clock edge (R124). -/
theorem clockEdge_fail (p : Params) (x : Inputs) (e : ResultCode) (r : Regs) :
    clockEdge p x (fail e r) r =
      { st := Code.idle, frame := 0#40, bitcnt := 0#6, oe := false, out := r.out, status := e,
        ticks := countTicks p x r.ticks } := rfl

/-- `TimerReset(); ST <- n` at the clock edge. -/
theorem clockEdge_moveOn (p : Params) (x : Inputs) (n : StateCode) (r : Regs) :
    clockEdge p x (moveOn n r) r = { r with st := n, ticks := 0 } := rfl

theorem clockEdge_st (p : Params) (x : Inputs) (c : Ctl) (r : Regs) : (clockEdge p x c r).st = c.st := by
  simp only [clockEdge, timer_st]
  unfold lineDriver
  split <;> rfl

theorem clockEdge_frame (p : Params) (x : Inputs) (c : Ctl) (r : Regs) : (clockEdge p x c r).frame = c.frame := by
  simp only [clockEdge, timer_frame]
  unfold lineDriver
  split <;> rfl

theorem clockEdge_bitcnt (p : Params) (x : Inputs) (c : Ctl) (r : Regs) :
    (clockEdge p x c r).bitcnt = c.bitcnt := by
  simp only [clockEdge, timer_bitcnt]
  unfold lineDriver
  split <;> rfl

theorem clockEdge_status (p : Params) (x : Inputs) (c : Ctl) (r : Regs) :
    (clockEdge p x c r).status = c.status := by
  simp only [clockEdge, timer_status]
  unfold lineDriver
  split <;> rfl

theorem clockEdge_oe (p : Params) (x : Inputs) (c : Ctl) (r : Regs) :
    (clockEdge p x c r).oe =
      if c.lcmd = Code.driveLow then true else if c.lcmd = Code.releaseHigh then false else r.oe := by
  have h : ∀ l : LineCode, l = 0#2 ∨ l = 1#2 ∨ l = 2#2 ∨ l = 3#2 := by decide
  rcases h c.lcmd with h | h | h | h <;> simp [clockEdge, h, lineDriver]

theorem clockEdge_out (p : Params) (x : Inputs) (c : Ctl) (r : Regs) :
    (clockEdge p x c r).out = if c.lcmd = Code.driveLow then false else r.out := by
  have h : ∀ l : LineCode, l = 0#2 ∨ l = 1#2 ∨ l = 2#2 ∨ l = 3#2 := by decide
  rcases h c.lcmd with h | h | h | h <;> simp [clockEdge, h, lineDriver]

theorem clockEdge_ticks (p : Params) (x : Inputs) (c : Ctl) (r : Regs) :
    (clockEdge p x c r).ticks = if c.tcmd = Code.tmrReset then 0 else countTicks p x r.ticks := by
  have h : (lineDriver c.lcmd (engine c r)).ticks = r.ticks := by
    unfold lineDriver
    split <;> rfl
  simp only [clockEdge, timer, h]

/-! ### The timed wait (R81) -/

theorem timedWait_timeout {level : Bool} {e : ResultCode} {a : Ctl} {p : Params} {r : Regs} {x : Inputs}
    (h : p.tTimeout ≤ r.ticks) : timedWait level e a p r x = fail e r := by
  simp [timedWait, h]

theorem timedWait_level {level : Bool} {e : ResultCode} {a : Ctl} {p : Params} {r : Regs} {x : Inputs}
    (h : r.ticks < p.tTimeout) (hl : x.lineIn = level) : timedWait level e a p r x = a := by
  simp [timedWait, hl, Nat.not_le.mpr h]

theorem timedWait_repeat {level : Bool} {e : ResultCode} {a : Ctl} {p : Params} {r : Regs} {x : Inputs}
    (h : r.ticks < p.tTimeout) (hl : x.lineIn ≠ level) : timedWait level e a p r x = keep r := by
  simp [timedWait, hl, Nat.not_le.mpr h]

/-- A timed wait does one of three things. -/
theorem timedWait_cases (level : Bool) (e : ResultCode) (a : Ctl) (p : Params) (r : Regs) (x : Inputs) :
    (p.tTimeout ≤ r.ticks ∧ timedWait level e a p r x = fail e r)
      ∨ (r.ticks < p.tTimeout ∧ x.lineIn = level ∧ timedWait level e a p r x = a)
      ∨ (r.ticks < p.tTimeout ∧ x.lineIn ≠ level ∧ timedWait level e a p r x = keep r) := by
  rcases Nat.lt_or_ge r.ticks p.tTimeout with h | h
  · by_cases hl : x.lineIn = level
    · exact .inr (.inl ⟨h, hl, timedWait_level h hl⟩)
    · exact .inr (.inr ⟨h, hl, timedWait_repeat h hl⟩)
  · exact .inl ⟨h, timedWait_timeout h⟩

/-! ### The configuration -/

theorem Params.wf_iff (p : Params) :
    p.wf = true ↔ 0 < p.tBit ∧ p.tBit < p.tTimeout ∧ p.tTimeout < 2 ^ p.tw ∧ p.tStart < 2 ^ p.tw
      ∧ p.tSettle < 2 ^ p.tw ∧ 1 ≤ p.tw := by
  simp [Params.wf, and_assoc]

/-! ### The state code -/

/-- `ST` is one of the nine codes of R46, or illegal. -/
theorem stateCode_cases (c : StateCode) :
    c = Code.idle ∨ c = Code.startLow ∨ c = Code.startSettle ∨ c = Code.awaitAckLow ∨ c = Code.awaitAckHigh
      ∨ c = Code.awaitDataStart ∨ c = Code.bitLow ∨ c = Code.bitHigh ∨ c = Code.done ∨ 9 ≤ c.toNat := by
  revert c; decide

theorem decodeState_illegal {c : StateCode} (h : 9 ≤ c.toNat) : decodeState c = .error (.illegalState c) := by
  revert c; decide

theorem stateControl_illegal {c : StateCode} (h : 9 ≤ c.toNat) : stateControl c = fun _ r _ => recovery r := by
  unfold stateControl
  split <;> first | omega | rfl

/-! ### The frame shifter (R99) -/

theorem shiftIn_toNat (f : FrameWord) (b : Bool) :
    (shiftIn f b).toNat = (2 * f.toNat) % 2 ^ 40 + b.toNat := by
  have h : shiftIn f b = f <<< 1 + (BitVec.ofBool b).setWidth 40 := by
    have hz : (f <<< 1) &&& (BitVec.ofBool b).setWidth 40 = 0#40 := by
      ext i hi
      cases b <;> simp
      omega
    rw [shiftIn, ← BitVec.add_eq_or_of_and_eq_zero _ _ hz]
  rw [h]
  cases b <;> simp [BitVec.toNat_add, BitVec.toNat_shiftLeft] <;> omega

/-- While bit 39 is clear nothing is lost. -/
theorem shiftIn_lt {f : FrameWord} {b : Bool} {n : Nat} (h : f.toNat < 2 ^ n) :
    (shiftIn f b).toNat < 2 ^ (n + 1) := by
  have hm : (2 * f.toNat) % 2 ^ 40 ≤ 2 * f.toNat := Nat.mod_le _ _
  have hb : b.toNat ≤ 1 := Bool.toNat_le b
  rw [shiftIn_toNat, Nat.pow_succ]
  omega

end Sys2Proof.Machine
end

