-- ==== Sys2Proof/Laws/PerInstr.lean ====
section
/-! SUPPORT. Facts about every instruction as syntax, one lemma per constructor. The family `CodeRoundTrip`: an operation's code
word is legal (R45) and decodes to the operation; an operation without a code has none (R47, R48, R54). -/

namespace Sys2Proof.Laws.CodeRoundTrip

/-- What the family says of one instruction. -/
def Statement (i : Instr) : Prop :=
  (i.hasCode = (encode i).isSome) ∧ ∀ w, encode i = some w → w.wf = true ∧ decode w = .ok i

theorem idle : Statement .idle := ⟨rfl, fun _ h => by cases h; exact ⟨rfl, rfl⟩⟩
theorem startLow : Statement .startLow := ⟨rfl, fun _ h => by cases h; exact ⟨rfl, rfl⟩⟩
theorem startSettle : Statement .startSettle := ⟨rfl, fun _ h => by cases h; exact ⟨rfl, rfl⟩⟩
theorem awaitAckLow : Statement .awaitAckLow := ⟨rfl, fun _ h => by cases h; exact ⟨rfl, rfl⟩⟩
theorem awaitAckHigh : Statement .awaitAckHigh := ⟨rfl, fun _ h => by cases h; exact ⟨rfl, rfl⟩⟩
theorem awaitDataStart : Statement .awaitDataStart := ⟨rfl, fun _ h => by cases h; exact ⟨rfl, rfl⟩⟩
theorem bitLow : Statement .bitLow := ⟨rfl, fun _ h => by cases h; exact ⟨rfl, rfl⟩⟩
theorem bitHigh : Statement .bitHigh := ⟨rfl, fun _ h => by cases h; exact ⟨rfl, rfl⟩⟩
theorem done : Statement .done := ⟨rfl, fun _ h => by cases h; exact ⟨rfl, rfl⟩⟩
theorem hold : Statement .hold := ⟨rfl, fun _ h => by cases h; exact ⟨rfl, rfl⟩⟩
theorem driveLow : Statement .driveLow := ⟨rfl, fun _ h => by cases h; exact ⟨rfl, rfl⟩⟩
theorem releaseHigh : Statement .releaseHigh := ⟨rfl, fun _ h => by cases h; exact ⟨rfl, rfl⟩⟩
theorem tmrCount : Statement .tmrCount := ⟨rfl, fun _ h => by cases h; exact ⟨rfl, rfl⟩⟩
theorem tmrReset : Statement .tmrReset := ⟨rfl, fun _ h => by cases h; exact ⟨rfl, rfl⟩⟩
theorem readLevel : Statement .readLevel := ⟨rfl, fun _ h => by cases h⟩
theorem tmrRead : Statement .tmrRead := ⟨rfl, fun _ h => by cases h⟩
theorem readSensor : Statement .readSensor := ⟨rfl, fun _ h => by cases h⟩
theorem resultNone : Statement .resultNone := ⟨rfl, fun _ h => by cases h; exact ⟨rfl, rfl⟩⟩
theorem resultOk : Statement .resultOk := ⟨rfl, fun _ h => by cases h; exact ⟨rfl, rfl⟩⟩
theorem resultNoResponse : Statement .resultNoResponse := ⟨rfl, fun _ h => by cases h; exact ⟨rfl, rfl⟩⟩
theorem resultFrameTimeout : Statement .resultFrameTimeout := ⟨rfl, fun _ h => by cases h; exact ⟨rfl, rfl⟩⟩
theorem resultChecksumMismatch : Statement .resultChecksumMismatch := ⟨rfl, fun _ h => by cases h; exact ⟨rfl, rfl⟩⟩

end Sys2Proof.Laws.CodeRoundTrip
end

