-- ==== Sys2Proof/Laws/Step.lean ====
section
/-! SUPPORT. What one step can do, said once: with `rst` = 0 it is the clock edge of what the operation selected by `ST`
decides, with `rst` = 1 it is the reset, and an undescribed configuration is refused. -/

namespace Sys2Proof.Machine

/-- A cycle with `rst` = 0, whichever operation `ST` selects. -/
theorem step_run {s : State} (hw : s.cfg.wf = true) (hr : s.env.now.rst = false) :
    step s = .next (nextCycle (runControl (stateControl s.regs.st) s)) := by
  rcases stateCode_cases s.regs.st with h | h | h | h | h | h | h | h | h | h
  case inr.inr.inr.inr.inr.inr.inr.inr.inr =>
    simp [step, hw, hr, fetch, decode, decodeState_illegal h, stateControl_illegal h, recoverCycle]
  all_goals
    simp only [step, hw, hr, fetch, decode, h]
    rfl

/-- A cycle with `rst` = 1. -/
theorem step_reset {s : State} (hw : s.cfg.wf = true) (hr : s.env.now.rst = true) :
    step s = .next (nextCycle (resetCycle s)) := by
  simp [step, hw, hr]

theorem step_refused {s : State} (hw : s.cfg.wf = false) : step s = .refused .configNotDescribed := by
  simp [step, hw]

/-- The inversion lemma: if a step answers `next t`, then the configuration is described and `t` is the reset or the
clock edge, with the next inputs current. -/
theorem step_next {s t : State} (h : step s = .next t) :
    s.cfg.wf = true ∧
      ((s.env.now.rst = true ∧ t = nextCycle (resetCycle s))
        ∨ (s.env.now.rst = false ∧ t = nextCycle (runControl (stateControl s.regs.st) s))) := by
  cases hw : s.cfg.wf with
  | false => simp [step_refused hw] at h
  | true =>
    cases hr : s.env.now.rst with
    | true =>
      rw [step_reset hw hr] at h
      injection h with h
      exact ⟨rfl, .inl ⟨rfl, h.symm⟩⟩
    | false =>
      rw [step_run hw hr] at h
      injection h with h
      exact ⟨rfl, .inr ⟨rfl, h.symm⟩⟩

/-- Runs compose. -/
theorem runCycles_add {m n : Nat} {s t : State} (h : runCycles m s = .next t) :
    runCycles (m + n) s = runCycles n t := by
  induction m generalizing s with
  | zero =>
    simp only [runCycles] at h
    injection h with h
    simp [h]
  | succ m ih =>
    rw [Nat.succ_add]
    simp only [runCycles] at h ⊢
    split at h
    · exact ih h
    · simp at h
    · simp at h

end Sys2Proof.Machine
end

