-- ==== Sys2Proof/Laws/Run.lean ====
section
/-! SUPPORT. Runs over a stimulus that is laid down: one cycle takes its first inputs, a list of cycles takes them all, and
what stays in the registers is the cycles' clock edges one after the other. -/

namespace Sys2Proof.Machine

@[simp] theorem fed_regs (s : State) (l : List Inputs) : (s.fed l).regs = s.regs := by
  cases l <;> rfl

@[simp] theorem fed_cfg (s : State) (l : List Inputs) : (s.fed l).cfg = s.cfg := by
  cases l <;> rfl

/-- The registers after a cycle with `rst` = 0, as a function of the registers and the inputs alone. -/
def edge (p : Params) (r : Regs) (x : Inputs) : Regs := clockEdge p x (stateControl r.st p r x) r

/-- One cycle of a stimulus: its first inputs are used up, the others are still to come. -/
theorem step_fed {s : State} {x : Inputs} (xs : List Inputs) (hw : s.cfg.wf = true) (hx : x.rst = false) :
    ∃ t : State, step (s.fed (x :: xs)) = .next (t.fed xs) ∧ t.cfg = s.cfg ∧ t.regs = edge s.cfg s.regs x := by
  have hs := step_run (s := s.fed (x :: xs)) (by simpa using hw) hx
  cases xs with
  | nil => exact ⟨_, hs, rfl, rfl⟩
  | cons y ys =>
    exact ⟨{ regs := edge s.cfg s.regs x, cfg := s.cfg, env := { now := x, coming := [], cycle := s.env.cycle + 1 } },
      hs, rfl, rfl⟩

/-- The cycles of a stimulus without reset, one after the other; what comes after it is untouched. -/
theorem run_fed {s : State} (l rest : List Inputs) (hw : s.cfg.wf = true) (hl : ∀ x ∈ l, x.rst = false) :
    ∃ t : State, runCycles l.length (s.fed (l ++ rest)) = .next (t.fed rest) ∧ t.cfg = s.cfg
      ∧ t.regs = l.foldl (edge s.cfg) s.regs := by
  induction l generalizing s with
  | nil => exact ⟨s, rfl, rfl, rfl⟩
  | cons x xs ih =>
    obtain ⟨u, hu, hc, hr⟩ := step_fed (xs ++ rest) hw (hl x (by simp))
    obtain ⟨t, ht, hd, hq⟩ := ih (hc ▸ hw) fun y hy => hl y (by simp [hy])
    refine ⟨t, ?_, hd.trans hc, ?_⟩
    · simpa [runCycles, hu] using ht
    · rw [hq, hc, hr]; rfl

/-- The first `n` cycles of a stimulus without reset. -/
theorem run_take {s : State} {l : List Inputs} {n : Nat} (hn : n ≤ l.length) (hw : s.cfg.wf = true)
    (hl : ∀ x ∈ l, x.rst = false) :
    ∃ t : State, runCycles n (s.fed l) = .next (t.fed (l.drop n)) ∧ t.cfg = s.cfg
      ∧ t.regs = (l.take n).foldl (edge s.cfg) s.regs := by
  have h := run_fed (s := s) (l.take n) (l.drop n) hw fun x hx => hl x (List.mem_of_mem_take hx)
  rwa [List.take_append_drop, List.length_take, Nat.min_eq_left hn] at h

end Sys2Proof.Machine
end

