-- ==== Sys2Proof/Tests/Slice0.lean ====
section
/-! SUPPORT. Tests. Every expected value comes from spec/: the code tables of R45 to R48 and R121, the single-step vectors of
spec/95_test_vectors.md (named in the docstrings: LD, TM, CM, HS, BD, RS, RST), the examples in the rules. Then, for every
obligation that has hypotheses, a witness: a concrete state and operands that meet them all. -/

namespace Sys2Proof.Tests

open Sys2Proof Sys2Proof.Machine

/-! ## Well-formedness: every check refuses an ill-formed term -/

theorem test_wf_state_code : (CodeWord.state 9#4).wf = false ∧ (CodeWord.state 8#4).wf = true := by decide
theorem test_wf_line_code : (CodeWord.line 3#2).wf = false ∧ (CodeWord.line 2#2).wf = true := by decide
theorem test_wf_result_code : (CodeWord.result 5#3).wf = false ∧ (CodeWord.result 4#3).wf = true := by decide
theorem test_wf_reference : Params.reference.wf = true := by decide
theorem test_wf_zero_threshold : { Params.reference with tBit := 0 }.wf = false := by decide
theorem test_wf_threshold_at_timeout : { Params.reference with tBit := 100 }.wf = false := by decide
theorem test_wf_timeout_too_wide : { Params.reference with tTimeout := 65536 }.wf = false := by decide
theorem test_wf_start_too_wide : { Params.reference with tStart := 65536 }.wf = false := by decide
theorem test_wf_settle_too_wide : { Params.reference with tSettle := 65536 }.wf = false := by decide
theorem test_wf_no_counter : { Params.reference with tw := 0 }.wf = false := by decide

/-! ## Decoding: the words of the code tables, bit by bit -/

/-- R46. -/
theorem test_decode_state_codes :
    decode (.state 0b0000#4) = .ok .idle ∧ decode (.state 0b0001#4) = .ok .startLow
      ∧ decode (.state 0b0010#4) = .ok .startSettle ∧ decode (.state 0b0011#4) = .ok .awaitAckLow
      ∧ decode (.state 0b0100#4) = .ok .awaitAckHigh ∧ decode (.state 0b0101#4) = .ok .awaitDataStart
      ∧ decode (.state 0b0110#4) = .ok .bitLow ∧ decode (.state 0b0111#4) = .ok .bitHigh
      ∧ decode (.state 0b1000#4) = .ok .done := by
  exact ⟨rfl, rfl, rfl, rfl, rfl, rfl, rfl, rfl, rfl⟩

/-- R47. -/
theorem test_decode_line_codes :
    decode (.line 0b00#2) = .ok .hold ∧ decode (.line 0b01#2) = .ok .driveLow
      ∧ decode (.line 0b10#2) = .ok .releaseHigh := by
  exact ⟨rfl, rfl, rfl⟩

/-- R48. -/
theorem test_decode_timer_codes :
    decode (.timer 0b0#1) = .ok .tmrCount ∧ decode (.timer 0b1#1) = .ok .tmrReset := by
  exact ⟨rfl, rfl⟩

/-- R121. -/
theorem test_decode_result_codes :
    decode (.result 0b000#3) = .ok .resultNone ∧ decode (.result 0b001#3) = .ok .resultOk
      ∧ decode (.result 0b010#3) = .ok .resultNoResponse ∧ decode (.result 0b011#3) = .ok .resultFrameTimeout
      ∧ decode (.result 0b100#3) = .ok .resultChecksumMismatch := by
  exact ⟨rfl, rfl, rfl, rfl, rfl⟩

/-- R50, R51: rejected by name. -/
theorem test_decode_rejects :
    decode (.state 9#4) = .error (.illegalState 9#4) ∧ decode (.state 15#4) = .error (.illegalState 15#4)
      ∧ decode (.line 3#2) = .error (.reservedLine 3#2) ∧ decode (.result 5#3) = .error (.reservedResult 5#3)
      ∧ decode (.result 7#3) = .error (.reservedResult 7#3) := by
  exact ⟨rfl, rfl, rfl, rfl, rfl⟩

/-- R47, R48, R54: three operations have no code. -/
theorem test_encode_no_code : encode .readLevel = none ∧ encode .tmrRead = none ∧ encode .readSensor = none := by decide

/-- Numbers that do not fit their format, and a number of no bits, are no instruction (log 16). -/
theorem test_table_word_none :
    decodeTableWord 0 0 = none ∧ decodeTableWord 1 2 = none ∧ decodeTableWord 2 4 = none
      ∧ decodeTableWord 3 8 = none ∧ decodeTableWord 8 16 = none ∧ decodeTableWord 8 9 = none := by decide

/-! ## One cycle -/

/-- A state of the reference configuration with the given registers and inputs of the cycle. -/
def cyc (r : Regs) (rst start lineIn tickEn : Bool) : State :=
  { regs := r, cfg := Params.reference,
    env := { now := { rst := rst, start := start, lineIn := lineIn, tickEn := tickEn }, coming := [], cycle := 0 } }

/-- The registers after an outcome that is a next state. -/
def after : Host.Outcome State Fault Refusal → Option Regs
  | .next t => some t.regs
  | .fault _ => none
  | .refused _ => none

/-- Registers with `OE` = `OUT` = 0 and `STATUS` = 0, as most rows of the vectors have them. -/
def regs (st : StateCode) (ticks : Nat) (bitcnt : BitCount) (frame : FrameWord) : Regs :=
  { Regs.reset with st := st, ticks := ticks, bitcnt := bitcnt, frame := frame }

/-- HS1: idle holds the result; the counter wraps silently. -/
theorem test_idle_holds :
    after (step (cyc { regs 0#4 65535 40#6 0x320018054F#40 with status := 1#3 } false false false true))
      = some { regs 0#4 0 40#6 0x320018054F#40 with status := 1#3 } := by decide

/-- HS2: acceptance clears the old result, drives the line and resets the counter. -/
theorem test_idle_accepts :
    after (step (cyc { regs 0#4 65535 40#6 0x320018054F#40 with status := 1#3 } false true false true))
      = some { regs 1#4 0 0#6 0#40 with oe := true } := by decide

/-- HS4, HS6: the delay is not over; without a tick no progress. -/
theorem test_start_low_waits :
    after (step (cyc { regs 1#4 17999 0#6 0#40 with oe := true } false false false true))
        = some { regs 1#4 18000 0#6 0#40 with oe := true }
      ∧ after (step (cyc { regs 1#4 17999 0#6 0#40 with oe := true } false false true false))
        = some { regs 1#4 17999 0#6 0#40 with oe := true } := by decide

/-- HS5: release; `start` and `line_in` are ignored. -/
theorem test_start_low_releases :
    after (step (cyc { regs 1#4 18000 0#6 0#40 with oe := true } false true false true))
      = some (regs 2#4 0 0#6 0#40) := by decide

/-- HS7, HS8. -/
theorem test_start_settle :
    after (step (cyc (regs 2#4 29 0#6 0#40) false false false true)) = some (regs 2#4 30 0#6 0#40)
      ∧ after (step (cyc (regs 2#4 30 0#6 0#40) false false false true)) = some (regs 3#4 0 0#6 0#40) := by decide

/-- HS9, HS10, HS12. -/
theorem test_await_ack_low :
    after (step (cyc (regs 3#4 0 0#6 0#40) false false false true)) = some (regs 4#4 0 0#6 0#40)
      ∧ after (step (cyc (regs 3#4 99 0#6 0#40) false false false true)) = some (regs 4#4 0 0#6 0#40)
      ∧ after (step (cyc (regs 3#4 99 0#6 0#40) false false true true)) = some (regs 3#4 100 0#6 0#40) := by decide

/-- HS11, HS13: the timeout wins over the level, needs no tick, and issues no timer reset. -/
theorem test_await_ack_low_timeout :
    after (step (cyc (regs 3#4 100 0#6 0#40) false false false true))
        = some { regs 0#4 101 0#6 0#40 with status := 2#3 }
      ∧ after (step (cyc (regs 3#4 100 0#6 0#40) false false true false))
        = some { regs 0#4 100 0#6 0#40 with status := 2#3 } := by decide

/-- HS14, HS15. -/
theorem test_await_ack_high :
    after (step (cyc (regs 4#4 40 0#6 0#40) false true false true)) = some (regs 4#4 41 0#6 0#40)
      ∧ after (step (cyc (regs 4#4 40 0#6 0#40) false true true true)) = some (regs 5#4 0 0#6 0#40) := by decide

/-- HS16. -/
theorem test_await_ack_high_timeout :
    after (step (cyc (regs 4#4 100 0#6 0#40) false false true true))
      = some { regs 0#4 101 0#6 0#40 with status := 2#3 } := by decide

/-- HS17, HS18. -/
theorem test_await_data_start :
    after (step (cyc (regs 5#4 80 0#6 0#40) false false false true)) = some (regs 6#4 0 0#6 0#40)
      ∧ after (step (cyc (regs 5#4 80 0#6 0#40) false false true false)) = some (regs 5#4 80 0#6 0#40) := by decide

/-- HS19. -/
theorem test_await_data_start_timeout :
    after (step (cyc (regs 5#4 100 0#6 0#40) false false false true))
      = some { regs 0#4 101 0#6 0#40 with status := 2#3 } := by decide

/-- BD1, BD2. -/
theorem test_bit_low :
    after (step (cyc (regs 6#4 50 0#6 0#40) false false true true)) = some (regs 7#4 0 0#6 0#40)
      ∧ after (step (cyc (regs 6#4 50 0#6 0#40) false false false true)) = some (regs 6#4 51 0#6 0#40) := by decide

/-- BD3: the timeout discards the byte received. -/
theorem test_bit_low_timeout :
    after (step (cyc (regs 6#4 100 8#6 0x32#40) false false true true))
      = some { regs 0#4 101 0#6 0#40 with status := 3#3 } := by decide

/-- BD4, BD5, BD6, BD7, BD11: the threshold, and a byte boundary. -/
theorem test_bit_high_classifies :
    after (step (cyc (regs 7#4 50 0#6 0#40) false false false true)) = some (regs 6#4 0 1#6 0#40)
      ∧ after (step (cyc (regs 7#4 51 0#6 0#40) false false false true)) = some (regs 6#4 0 1#6 1#40)
      ∧ after (step (cyc (regs 7#4 0 0#6 0#40) false false false true)) = some (regs 6#4 0 1#6 0#40)
      ∧ after (step (cyc (regs 7#4 99 0#6 0#40) false false false true)) = some (regs 6#4 0 1#6 1#40)
      ∧ after (step (cyc (regs 7#4 20 7#6 0x19#40) false false false true)) = some (regs 6#4 0 8#6 0x32#40) := by decide

/-- BD8, BD9, BD10, BD12, BD13: timeout over edge, a pulse that goes on, the 40th bit, the dropped bit 39. -/
theorem test_bit_high_edges :
    after (step (cyc (regs 7#4 100 8#6 0x32#40) false false false true))
        = some { regs 0#4 101 0#6 0#40 with status := 3#3 }
      ∧ after (step (cyc (regs 7#4 70 8#6 0x32#40) false true true true)) = some (regs 7#4 71 8#6 0x32#40)
      ∧ after (step (cyc (regs 7#4 70 39#6 0x19000C02A7#40) false false false true))
        = some (regs 8#4 71 40#6 0x320018054F#40)
      ∧ after (step (cyc (regs 7#4 60 5#6 0x8000000001#40) false false false true)) = some (regs 6#4 0 6#6 3#40)
      ∧ after (step (cyc (regs 7#4 50 39#6 0x19000C02A7#40) false false false false))
        = some (regs 8#4 50 40#6 0x320018054E#40) := by decide

/-- RS1, RS5, RS7: sums without and with a carry out of eight bits; `start` in the DONE cycle is ignored (RS4). -/
theorem test_done_ok :
    after (step (cyc (regs 8#4 70 40#6 0x320018054F#40) false false false true))
        = some { regs 0#4 71 40#6 0x320018054F#40 with status := 1#3 }
      ∧ after (step (cyc (regs 8#4 70 40#6 0xFFFFFFFFFC#40) false false false true))
        = some { regs 0#4 71 40#6 0xFFFFFFFFFC#40 with status := 1#3 }
      ∧ after (step (cyc (regs 8#4 70 40#6 0x00FF800180#40) false false false true))
        = some { regs 0#4 71 40#6 0x00FF800180#40 with status := 1#3 }
      ∧ after (step (cyc (regs 8#4 70 40#6 0#40) false true false true))
        = some { regs 0#4 71 40#6 0#40 with status := 1#3 } := by decide

/-- RS2, RS6 with the check on, RS3 with the check off. -/
theorem test_done_mismatch :
    after (step (cyc (regs 8#4 70 40#6 0x320018054E#40) false false false true))
        = some { regs 0#4 71 40#6 0#40 with status := 4#3 }
      ∧ after (step (cyc (regs 8#4 70 40#6 0xFFFFFFFFFF#40) false false false true))
        = some { regs 0#4 71 40#6 0#40 with status := 4#3 }
      ∧ after (step { cyc (regs 8#4 70 40#6 0x320018054E#40) false false false true with
            cfg := { Params.reference with checksumEn := false } })
        = some { regs 0#4 71 40#6 0x320018054E#40 with status := 1#3 } := by decide

/-- LD5, LD6. -/
theorem test_hold :
    after (exec .hold (cyc { Regs.reset with oe := true } false false false true)) = some { Regs.reset with oe := true }
      ∧ after (exec .hold (cyc Regs.reset false false false true)) = some Regs.reset := by decide

/-- LD1, LD2. -/
theorem test_drive_low :
    after (exec .driveLow (cyc Regs.reset false false false true)) = some { Regs.reset with oe := true }
      ∧ after (exec .driveLow (cyc { Regs.reset with oe := true } false false false true))
        = some { Regs.reset with oe := true } := by decide

/-- LD3, LD4. -/
theorem test_release_high :
    after (exec .releaseHigh (cyc { Regs.reset with oe := true } false false false true)) = some Regs.reset
      ∧ after (exec .releaseHigh (cyc Regs.reset false false false true)) = some Regs.reset := by decide

/-- LD7 to LD10: the pin. -/
theorem test_pin_level :
    pinLevel { Regs.reset with oe := true } true = false ∧ pinLevel { Regs.reset with oe := true } false = false
      ∧ pinLevel Regs.reset true = true ∧ pinLevel Regs.reset false = false := by decide

/-- TM3, TM4, TM5. -/
theorem test_tmr_count :
    after (exec .tmrCount (cyc { Regs.reset with ticks := 57 } false false false true)) = some { Regs.reset with ticks := 58 }
      ∧ after (exec .tmrCount (cyc { Regs.reset with ticks := 57 } false false false false))
        = some { Regs.reset with ticks := 57 }
      ∧ after (exec .tmrCount (cyc { Regs.reset with ticks := 65535 } false false false true)) = some Regs.reset := by decide

/-- TM1, TM2, TM6: the reset overrides the increment. -/
theorem test_tmr_reset :
    after (exec .tmrReset (cyc { Regs.reset with ticks := 57 } false false false true)) = some Regs.reset
      ∧ after (exec .tmrReset (cyc { Regs.reset with ticks := 57 } false false false false)) = some Regs.reset
      ∧ after (exec .tmrReset (cyc Regs.reset false false false true)) = some Regs.reset := by decide

/-- R62: `LineRead() = line_in`, no side effect. -/
theorem test_read_level :
    after (exec .readLevel (cyc (regs 3#4 5 0#6 0#40) false false false true)) = some (regs 3#4 5 0#6 0#40)
      ∧ lineRead (cyc (regs 3#4 5 0#6 0#40) false false false true).env.now = false := by decide

/-- R72: `TimerRead() = TICKS`, no side effect. -/
theorem test_tmr_read :
    after (exec .tmrRead (cyc (regs 3#4 57 0#6 0#40) false false false true)) = some (regs 3#4 57 0#6 0#40)
      ∧ timerRead (regs 3#4 57 0#6 0#40) = 57 := by decide

/-- R82's example: from the reset state a request gives START_LOW with the line driven. -/
theorem test_read_sensor :
    exec .readSensor (cyc Regs.reset false false true true) = .next (cyc Regs.reset false true true true)
      ∧ after (step (cyc Regs.reset false true true true)) = some { regs 1#4 0 0#6 0#40 with oe := true } := by
  exact ⟨rfl, by decide⟩

/-- R121, R124, R125: the entries, as the rules' pseudocode has them. -/
theorem test_result_codes :
    after (exec .resultNone (cyc { regs 0#4 7 40#6 5#40 with status := 1#3 } false false false true))
        = some (regs 0#4 7 40#6 5#40)
      ∧ after (exec .resultOk (cyc (regs 8#4 7 40#6 5#40) false false false true))
        = some { regs 0#4 7 40#6 5#40 with status := 1#3 }
      ∧ after (exec .resultNoResponse (cyc { regs 4#4 100 3#6 5#40 with oe := true } false false false true))
        = some { regs 0#4 100 0#6 0#40 with status := 2#3 }
      ∧ after (exec .resultFrameTimeout (cyc (regs 7#4 100 3#6 5#40) false false false true))
        = some { regs 0#4 100 0#6 0#40 with status := 3#3 }
      ∧ after (exec .resultChecksumMismatch (cyc (regs 8#4 7 40#6 5#40) false false false true))
        = some { regs 0#4 7 40#6 0#40 with status := 4#3 } := by decide

/-- CM2 to CM9: the four comparators at their boundaries. -/
theorem test_comparators :
    settleOver Params.reference (regs 2#4 29 0#6 0#40) = false ∧ settleOver Params.reference (regs 2#4 30 0#6 0#40) = true
      ∧ longPulse Params.reference (regs 7#4 50 0#6 0#40) = false ∧ longPulse Params.reference (regs 7#4 51 0#6 0#40) = true
      ∧ timedOut Params.reference (regs 7#4 99 0#6 0#40) = false ∧ timedOut Params.reference (regs 7#4 100 0#6 0#40) = true
      ∧ startOver Params.reference (regs 1#4 17999 0#6 0#40) = false
      ∧ startOver Params.reference (regs 1#4 18000 0#6 0#40) = true := by decide

/-- RST1, RST2, HS3: reset beats the timeout, releases the line, beats `start`. -/
theorem test_reset :
    after (step (cyc (regs 7#4 100 8#6 0x32#40) true true true true)) = some Regs.reset
      ∧ after (step (cyc { regs 1#4 5 0#6 0#40 with oe := true } true false true true)) = some Regs.reset
      ∧ after (step (cyc { regs 0#4 7 40#6 0x320018054F#40 with status := 1#3 } true true true true))
        = some Regs.reset := by decide

/-- The recovery vector of spec/95 section 2.8. -/
theorem test_illegal_state :
    after (step (cyc { regs 12#4 9 3#6 5#40 with oe := true, status := 1#3 } false false false true))
      = some (regs 0#4 10 0#6 0#40) := by decide

/-- RS1, RS5, RS7, RS8 on the ports, and the gating example below them. -/
theorem test_ports :
    outputs { regs 0#4 71 40#6 0x320018054F#40 with status := 1#3 }
        = { lineOe := false, lineOut := false, busy := false, status := 1#3, valid := true, raw := 0x320018054F#40,
            humX10 := 500#12, tempX10 := 245#12 }
      ∧ humX10 0xFFFFFFFFFC#40 = 2805#12 ∧ tempX10 0xFFFFFFFFFC#40 = 2805#12
      ∧ humX10 0x00FF800180#40 = 255#12 ∧ tempX10 0x00FF800180#40 = 1281#12
      ∧ humX10 0x2819160F66#40 = 425#12 ∧ tempX10 0x2819160F66#40 = 235#12
      ∧ outputs (regs 6#4 3 8#6 0x32#40)
        = { lineOe := false, lineOut := false, busy := true, status := 0#3, valid := false, raw := 0#40,
            humX10 := 0#12, tempX10 := 0#12 } := by decide

/-- HS2, HS5, HS9, HS11 and HS3: the columns LCMD and TCMD. -/
theorem test_commands :
    issuedLine (cyc (regs 0#4 0 0#6 0#40) false true false true) = 1#2
      ∧ issuedTimer (cyc (regs 0#4 0 0#6 0#40) false true false true) = 1#1
      ∧ issuedLine (cyc (regs 1#4 18000 0#6 0#40) false true false true) = 2#2
      ∧ issuedTimer (cyc (regs 3#4 0 0#6 0#40) false false false true) = 1#1
      ∧ issuedLine (cyc (regs 3#4 100 0#6 0#40) false false false true) = 2#2
      ∧ issuedTimer (cyc (regs 3#4 100 0#6 0#40) false false false true) = 0#1
      ∧ issuedLine (cyc (regs 0#4 7 40#6 0#40) true true true true) = 0#2 := by decide

/-- R13: the phases. -/
theorem test_phases :
    phase 0#4 = some .idle ∧ phase 1#4 = some .pull ∧ phase 2#4 = some .release ∧ phase 3#4 = some .sample
      ∧ phase 7#4 = some .sample ∧ phase 8#4 = some .idle ∧ phase 9#4 = none := by decide

/-- The word placed by `withFetchWord` is what the very next step runs: a state code by `ST`, the others by the command or
the result code that the cycle issues (log 16). -/
theorem test_with_fetch_word :
    after (step (State.reset.withFetchWord 8 8)) = some { Regs.reset with status := 1#3, ticks := 1 }
      ∧ after (step (State.reset.withFetchWord 8 6)) = some { Regs.reset with st := 7#4 }
      ∧ issuedLine (State.reset.withFetchWord 2 1) = 1#2 ∧ issuedLine (State.reset.withFetchWord 2 2) = 2#2
      ∧ issuedTimer (State.reset.withFetchWord 1 1) = 1#1 ∧ issuedTimer (State.reset.withFetchWord 1 0) = 0#1
      ∧ (after (step (State.reset.withFetchWord 3 2))).map Regs.status = some 2#3
      ∧ (after (step (State.reset.withFetchWord 3 4))).map Regs.status = some 4#3 := by decide

/-! ## Witnesses: the hypotheses of every obligation that has some are met, clause by clause, at boundary values -/

/-- For `ReservedCodesAreInert`: reserved result codes, and a step from the largest legal and the smallest reserved status. -/
theorem test_witness_reserved :
    5 ≤ (5#3 : ResultCode).toNat ∧ 5 ≤ (7#3 : ResultCode).toNat
      ∧ (∃ t, step (cyc { Regs.reset with status := 4#3 } false false true true) = .next t)
      ∧ ∃ t, step (cyc { Regs.reset with status := 5#3 } false false true true) = .next t := by
  exact ⟨by decide, by decide, ⟨_, rfl⟩, ⟨_, rfl⟩⟩

/-- For `StepRunsTheOperationOfST`, at the first and the last code, and for `InputsPassAtTheEndOfACycle` (an input to come, and
none). -/
theorem test_witness_step :
    (cyc (regs 0#4 0 0#6 0#40) false false true true).cfg.wf = true
      ∧ (cyc (regs 0#4 0 0#6 0#40) false false true true).env.now.rst = false
      ∧ decode (.state (regs 0#4 0 0#6 0#40).st) = .ok .idle ∧ decode (.state (regs 8#4 0 40#6 0#40).st) = .ok .done
      ∧ (cyc (regs 0#4 0 0#6 0#40) true false true true).env.now.rst = true
      ∧ (State.reset.fed [tickAt true, tickAt false]).env.coming = [tickAt false]
      ∧ State.reset.env.coming = [] := by
  exact ⟨by decide, rfl, rfl, rfl, rfl, rfl, rfl⟩

/-- For the statements about one cycle in a described configuration, without or with reset: `ResetLeavesTheResetState`,
`MachineFollowsTheTransitionTable`, `CommandsOfEachOperation` (codes 0 and 8), `CommandsTakeEffectAtTheEdge`,
`StatusInfluencesNothing`, `NoRunEverStops`, `CounterCountsTicks`. -/
theorem test_witness_cycle :
    (cyc (regs 8#4 0 40#6 0#40) false false true true).cfg.wf = true
      ∧ (cyc (regs 8#4 0 40#6 0#40) false false true true).env.now.rst = false
      ∧ (cyc (regs 8#4 0 40#6 0#40) true false true true).env.now.rst = true
      ∧ (regs 8#4 0 40#6 0#40).st.toNat ≤ 8 ∧ (regs 0#4 0 0#6 0#40).st.toNat ≤ 8
      ∧ ∃ t, step (cyc (regs 8#4 0 40#6 0#40) false false true true) = .next t := by
  exact ⟨by decide, rfl, rfl, by decide, by decide, ⟨_, rfl⟩⟩

/-- For `IllegalStateRecovers`: the illegal codes 9 and 15, and a step from the legal code 8. -/
theorem test_witness_illegal :
    (cyc (regs 9#4 0 0#6 0#40) false false true true).cfg.wf = true ∧ 9 ≤ (regs 9#4 0 0#6 0#40).st.toNat
      ∧ 9 ≤ (regs 15#4 0 0#6 0#40).st.toNat ∧ legalState (regs 8#4 0 40#6 0#40)
      ∧ ∃ t, step (cyc (regs 8#4 0 40#6 0#40) false false true true) = .next t := by
  exact ⟨by decide, by decide, by decide, by unfold legalState; decide, ⟨_, rfl⟩⟩

/-- For `UndescribedConfigurationIsRefused`. -/
theorem test_witness_undescribed :
    { State.reset with cfg := { Params.reference with tBit := 100 } }.cfg.wf = false := by decide

/-- For the clauses of `DriveLowPullsThePinLow`, `ReleaseHighFloatsThePin`, `HoldAndReadsChangeNothing` that start from an
execution answering a next state. -/
theorem test_witness_exec :
    (∃ t, exec .driveLow State.reset = .next t) ∧ (∃ t, exec .releaseHigh State.reset = .next t)
      ∧ ∃ t, exec .tmrReset State.reset = .next t := by
  exact ⟨⟨_, rfl⟩, ⟨_, rfl⟩, ⟨_, rfl⟩⟩

/-- Does executing the instruction answer a next state in which the register differs from what it was? -/
def writes {α : Type} [DecidableEq α] (i : Instr) (s : State) (f : Regs → α) : Bool :=
  match after (exec i s) with
  | some r => decide (f r ≠ f s.regs)
  | none => false

/-- For `OnlyTheNamedOperationsWrite`: the clauses of OUT and OE (rising by acceptance, falling by a timeout at its first
tick). -/
theorem test_witness_writes_line :
    writes .driveLow (cyc { Regs.reset with out := true } false false true true) Regs.out = true
      ∧ writes .idle (cyc Regs.reset false true true true) Regs.oe = true
      ∧ writes .releaseHigh (cyc { Regs.reset with oe := true } false false true true) Regs.oe = true
      ∧ writes .awaitAckLow (cyc { regs 3#4 100 0#6 0#40 with oe := true } false false true true) Regs.oe = true := by
  decide

/-- The same for FRAME and BITCNT (cleared, shifted) and STATUS (each of the five codes). -/
theorem test_witness_writes_frame :
    writes .bitLow (cyc (regs 6#4 100 8#6 0x32#40) false false true true) Regs.frame = true
      ∧ writes .done (cyc (regs 8#4 0 40#6 1#40) false false true true) Regs.frame = true
      ∧ writes .bitHigh (cyc (regs 7#4 99 8#6 0x32#40) false false false true) Regs.frame = true
      ∧ writes .bitLow (cyc (regs 6#4 100 8#6 0x32#40) false false true true) Regs.bitcnt = true
      ∧ writes .bitHigh (cyc (regs 7#4 99 8#6 0x32#40) false false false true) Regs.bitcnt = true
      ∧ writes .idle (cyc { Regs.reset with status := 1#3 } false true true true) Regs.status = true
      ∧ writes .done (cyc (regs 8#4 0 40#6 0#40) false false true true) Regs.status = true
      ∧ writes .done (cyc (regs 8#4 0 40#6 1#40) false false true true) Regs.status = true
      ∧ writes .awaitAckLow (cyc (regs 3#4 100 0#6 0#40) false false true true) Regs.status = true
      ∧ writes .resultFrameTimeout (cyc Regs.reset false false true true) Regs.status = true := by
  decide

/-- The same for TICKS (counted, cleared) and ST (the last cycle of a delay, a result code, a level seen in `BIT_HIGH` before
and at the 40th bit). -/
theorem test_witness_writes_control :
    writes .tmrCount (cyc Regs.reset false false true true) Regs.ticks = true
      ∧ writes .startSettle (cyc (regs 2#4 30 0#6 0#40) false false true true) Regs.ticks = true
      ∧ writes .startSettle (cyc (regs 2#4 30 0#6 0#40) false false true true) Regs.st = true
      ∧ writes .resultOk (cyc (regs 8#4 0 40#6 0#40) false false true true) Regs.st = true
      ∧ writes .bitHigh (cyc (regs 7#4 99 38#6 0#40) false false false true) Regs.st = true
      ∧ writes .bitHigh (cyc (regs 7#4 99 39#6 0#40) false false false true) Regs.st = true := by
  decide

/-- For `ReadSensorStartsARead` and `StartIsLookedAtInIdleOnly` (its second clause at the codes next to IDLE's). -/
theorem test_witness_request :
    State.reset.cfg.wf = true ∧ State.reset.env.now.rst = false ∧ State.reset.regs.st = Code.idle
      ∧ (∃ u, exec .readSensor State.reset = .next u)
      ∧ (cyc Regs.reset false true true true).env.now.start = true
      ∧ (regs 1#4 0 0#6 0#40).st ≠ Code.idle ∧ (regs 15#4 0 0#6 0#40).st ≠ Code.idle := by
  exact ⟨by decide, rfl, rfl, ⟨_, rfl⟩, rfl, by decide, by decide⟩

/-- For `FailEntersIdle` and `PartialFrameIsDiscarded`: the waits at both ends of their range, exactly at the timeout. -/
theorem test_witness_timeout :
    (cyc (regs 3#4 100 0#6 0#40) false false true true).cfg.wf = true
      ∧ (cyc (regs 3#4 100 0#6 0#40) false false true true).env.now.rst = false
      ∧ isTimedWait 3#4 = true ∧ isTimedWait 7#4 = true ∧ isTimedWait 2#4 = false ∧ isTimedWait 8#4 = false
      ∧ Params.reference.tTimeout ≤ (regs 3#4 100 0#6 0#40).ticks
      ∧ ((regs 6#4 100 8#6 0x32#40).st = Code.bitLow ∨ (regs 6#4 100 8#6 0x32#40).st = Code.bitHigh) := by decide

/-- For `PriorityWithinACycle`: its four clauses; the third and the fourth at the last tick before the timeout. -/
theorem test_witness_priority :
    (cyc (regs 3#4 100 0#6 0#40) false false false true).cfg.wf = true ∧ isTimedWait (regs 3#4 100 0#6 0#40).st = true
      ∧ (cyc (regs 3#4 100 0#6 0#40) true false false true).env.now.rst = true
      ∧ Params.reference.tTimeout ≤ (regs 3#4 100 0#6 0#40).ticks
      ∧ (regs 3#4 99 0#6 0#40).ticks < Params.reference.tTimeout
      ∧ (cyc (regs 3#4 99 0#6 0#40) false false false true).env.now.lineIn = awaitedLevel 3#4
      ∧ (cyc (regs 3#4 99 0#6 0#40) false false true true).env.now.lineIn ≠ awaitedLevel 3#4 := by decide

/-- The invariant in `START_LOW`, the one state that drives the line. -/
theorem test_inv_start_low : Inv Params.reference { regs 1#4 18000 0#6 0#40 with oe := true } :=
  ⟨by unfold legalState; decide, by decide, by decide, by unfold bitCountFits; decide, by unfold frameFits; decide,
    by decide, by decide, by decide, by decide⟩

/-- The invariant in `BIT_HIGH` before the 40th bit, with every bit of the frame so far set. -/
theorem test_inv_last_bit : Inv Params.reference (regs 7#4 100 39#6 0x7FFFFFFFFF#40) :=
  ⟨by unfold legalState; decide, by decide, by decide, by unfold bitCountFits; decide, by unfold frameFits; decide,
    by decide, by decide, by decide, by decide⟩

/-- The invariant in `IDLE` with a result. -/
theorem test_inv_result : Inv Params.reference { regs 0#4 71 40#6 0x320018054F#40 with status := 1#3 } :=
  ⟨by unfold legalState; decide, by decide, by decide, by unfold bitCountFits; decide, by unfold frameFits; decide,
    by decide, by decide, by decide, by decide⟩

/-- For `EveryStepKeepsTheInvariant`, `FailEntersIdle` (third clause), `DataPortsShowAFinishedReadOnly` (all clauses) and
`PinIsNeverDrivenHigh` (driven, released, sampling). -/
theorem test_witness_invariant :
    Inv Params.reference (regs 7#4 100 39#6 0x7FFFFFFFFF#40)
      ∧ (∃ t, step (cyc (regs 7#4 100 39#6 0x7FFFFFFFFF#40) false false true true) = .next t)
      ∧ isTimedWait (regs 7#4 100 39#6 0x7FFFFFFFFF#40).st = true
      ∧ (outputs (regs 7#4 100 39#6 0x7FFFFFFFFF#40)).busy = true
      ∧ (regs 7#4 100 39#6 0x7FFFFFFFFF#40).oe = false ∧ phase (regs 7#4 100 39#6 0x7FFFFFFFFF#40).st = some .sample
      ∧ { regs 1#4 18000 0#6 0#40 with oe := true }.oe = true
      ∧ { regs 0#4 71 40#6 0x320018054F#40 with status := 1#3 }.status = Code.ok
      ∧ (regs 0#4 71 40#6 0#40).status ≠ Code.ok := by
  exact ⟨test_inv_last_bit, ⟨_, rfl⟩, rfl, by decide, rfl, rfl, rfl, rfl, by decide⟩

/-- For `EveryStepKeepsTicksInWindow`: the three windows at their ends. -/
theorem test_witness_window :
    TicksInWindow Params.reference { regs 1#4 18000 0#6 0#40 with oe := true }
      ∧ TicksInWindow Params.reference (regs 2#4 30 0#6 0#40) ∧ TicksInWindow Params.reference (regs 7#4 100 0#6 0#40)
      ∧ ∃ t, step (cyc (regs 7#4 100 0#6 0#40) false false true true) = .next t := by
  exact ⟨⟨by decide, by decide, by decide, by decide⟩, ⟨by decide, by decide, by decide, by decide⟩,
    ⟨by decide, by decide, by decide, by decide⟩, ⟨_, rfl⟩⟩

/-- For `ReachableStatesSatisfyTheInvariant`: two cycles from the reset registers. -/
theorem test_witness_reachable :
    (State.reset.fed [tickAt true, tickAt true]).cfg.wf = true
      ∧ (State.reset.fed [tickAt true, tickAt true]).regs = Regs.reset
      ∧ ∃ t, runCycles 2 (State.reset.fed [tickAt true, tickAt true]) = .next t := by
  exact ⟨by decide, rfl, ⟨_, rfl⟩⟩

/-- For `LineIsReadInSamplingStatesOnly`: the states next to the sampling states, and an illegal one. -/
theorem test_witness_not_sampling :
    phase (regs 2#4 0 0#6 0#40).st ≠ some .sample ∧ phase (regs 8#4 0 40#6 0#40).st ≠ some .sample
      ∧ phase (regs 9#4 0 0#6 0#40).st ≠ some .sample := by decide

/-- For `ReadsDoNotLeak`: after a reset, and after a read that succeeded. -/
theorem test_witness_no_leak :
    (cyc Regs.reset false true true true).cfg.wf = true
      ∧ (cyc Regs.reset false true true true).cfg
        = (cyc { regs 0#4 71 40#6 0x320018054F#40 with status := 1#3 } false true true true).cfg
      ∧ (cyc Regs.reset false true true true).env
        = (cyc { regs 0#4 71 40#6 0x320018054F#40 with status := 1#3 } false true true true).env
      ∧ (cyc Regs.reset false true true true).env.now.rst = false
      ∧ (cyc Regs.reset false true true true).env.now.start = true := by decide

/-- For `ShifterAccumulatesFiveBytes`. -/
theorem test_witness_shifter : (List.replicate 40 true).length = 40 := by decide

/-- The smallest configuration in which both bits can be decoded (R101). -/
def small : Params := { tTimeout := 3, tBit := 1, tStart := 1, tSettle := 0, tw := 2, checksumEn := true }

/-- A state of that configuration. -/
def cycSmall (r : Regs) : State := { cyc r false false true true with cfg := small }

/-- For `OneBitDecodesByPulseLength`: the shortest pulses and the longest that fit. -/
theorem test_witness_bit :
    (cycSmall (regs 6#4 0 39#6 0#40)).cfg.wf = true ∧ pulseFits small (0, 1) = true ∧ pulseFits small (2, 3) = true
      ∧ pulseFits small (3, 1) = false ∧ pulseFits small (0, 4) = false ∧ pulseFits small (0, 0) = false
      ∧ (cycSmall (regs 6#4 0 39#6 0#40)).regs.st = Code.bitLow ∧ (cycSmall (regs 6#4 0 39#6 0#40)).regs.ticks = 0 := by
  decide

/-- For `FortyPulsesGiveTheReading`: forty short pulses give a frame whose checksum holds, forty long ones a frame whose
checksum does not. -/
theorem test_witness_frame :
    (cycSmall (regs 6#4 0 0#6 0#40)).cfg.wf = true ∧ (List.replicate 40 (2, 3)).length = 40
      ∧ (∀ b ∈ List.replicate 40 (2, 3), pulseFits small b = true)
      ∧ (∀ b ∈ List.replicate 40 (0, 1), pulseFits small b = true)
      ∧ (cycSmall (regs 6#4 0 0#6 0#40)).regs.st = Code.bitLow ∧ (cycSmall (regs 6#4 0 0#6 0#40)).regs.ticks = 0
      ∧ (cycSmall (regs 6#4 0 0#6 0#40)).regs.bitcnt = 0#6 ∧ (tickAt true).rst = false := by
  refine ⟨by decide, rfl, fun b hb => ?_, fun b hb => ?_, rfl, rfl, rfl, rfl⟩
  · rw [List.eq_of_mem_replicate hb]; decide
  · rw [List.eq_of_mem_replicate hb]; decide

/-- The same, for its last two clauses: forty zeros and forty ones are these two frames. -/
theorem test_witness_frame_checksum :
    bitOfPulse small 1 = false ∧ bitOfPulse small 3 = true
      ∧ shiftAll 0#40 (List.replicate 40 false) = 0#40 ∧ shiftAll 0#40 (List.replicate 40 true) = 0xFFFFFFFFFF#40
      ∧ checksum 0#40 = byte4 0#40 ∧ checksum 0xFFFFFFFFFF#40 ≠ byte4 0xFFFFFFFFFF#40 := by
  exact ⟨by decide, by decide, by simp [shiftAll, shiftIn, List.replicate_succ], by simp [shiftAll, shiftIn, List.replicate_succ],
    by decide, by decide⟩

/-- For `StuckLineTimesOutExactly` and `EveryTimedWaitIsBounded` (just entered, and at the last tick). -/
theorem test_witness_wait :
    (cycSmall (regs 3#4 0 0#6 0#40)).cfg.wf = true ∧ isTimedWait (cycSmall (regs 3#4 0 0#6 0#40)).regs.st = true
      ∧ (cycSmall (regs 3#4 0 0#6 0#40)).regs.ticks = 0
      ∧ (cycSmall (regs 7#4 3 0#6 0#40)).regs.ticks ≤ small.tTimeout
      ∧ ticking (List.replicate 4 (tickAt true)) ∧ small.tTimeout + 1 ≤ (List.replicate 4 (tickAt true)).length := by
  unfold ticking
  decide

/-- For `EveryReadTerminates` and `StartPulseHasItsLength`: a stimulus of ticks as long as the bound asks, with a request in
its first cycle. -/
theorem test_witness_read :
    (cycSmall Regs.reset).cfg.wf = true ∧ (cycSmall Regs.reset).regs.st = Code.idle
      ∧ { tickAt true with start := true }.start = true
      ∧ ticking ({ tickAt true with start := true } :: List.replicate 254 (tickAt true))
      ∧ readBound small ≤ (List.replicate 254 (tickAt true)).length
      ∧ small.tStart + 2 ≤ (List.replicate 254 (tickAt true)).length := by
  refine ⟨by decide, rfl, rfl, ?_, by rw [List.length_replicate]; decide, by rw [List.length_replicate]; decide⟩
  intro x hx
  rcases List.mem_cons.mp hx with h | h
  · subst h; exact ⟨rfl, rfl⟩
  · rw [List.eq_of_mem_replicate h]; exact ⟨rfl, rfl⟩

/-- For `IdleHoldsTheResult`: no cycle, and all of the stimulus. -/
theorem test_witness_idle :
    (cycSmall Regs.reset).cfg.wf = true ∧ (cycSmall Regs.reset).regs.st = Code.idle
      ∧ quiet (List.replicate 3 (tickAt true)) ∧ 0 ≤ (List.replicate 3 (tickAt true)).length
      ∧ 3 ≤ (List.replicate 3 (tickAt true)).length := by
  unfold quiet
  decide

/-- For `HeldStartShowsTheResultOnce`: a read that ends in `DONE`, and reads that end at the timeout in the first and the last
timed wait. -/
theorem test_witness_held_start :
    (cycSmall (regs 8#4 0 40#6 0#40)).cfg.wf = true ∧ (cycSmall (regs 8#4 0 40#6 0#40)).regs.st = Code.done
      ∧ isTimedWait (cycSmall (regs 3#4 3 0#6 0#40)).regs.st = true
      ∧ isTimedWait (cycSmall (regs 7#4 3 8#6 0x32#40)).regs.st = true
      ∧ small.tTimeout ≤ (cycSmall (regs 7#4 3 8#6 0x32#40)).regs.ticks
      ∧ { tickAt true with start := true }.rst = false ∧ { tickAt true with start := true }.start = true := by decide

/-- R150's case in PROG4, cycles 70 to 72: with `start` held, a frame timeout shows for one cycle and the next read begins. -/
theorem test_held_start_after_timeout :
    after (runCycles 1 ((cycSmall (regs 7#4 3 8#6 0x32#40)).fed (List.replicate 2 { tickAt true with start := true })))
        = some { regs 0#4 0 0#6 0#40 with status := 3#3 }
      ∧ after (runCycles 2
          ((cycSmall (regs 7#4 3 8#6 0x32#40)).fed (List.replicate 2 { tickAt true with start := true })))
        = some { regs 1#4 0 0#6 0#40 with oe := true } := by decide

end Sys2Proof.Tests
end

/-! ## Proofs: the state (spec/10_state.md)

First what later proofs share: a cycle without reset as `edge`, what every run keeps, and the invariant of R29 kept by
one clock edge, one lemma per state operation. Then the statements. -/

namespace Sys2Proof.Machine

/-! ### Cycles and runs -/

/-- A cycle with `rst` = 0: the registers go over `edge`, then the next inputs become current. -/
theorem step_edge {s : State} (hw : s.cfg.wf = true) (hr : s.env.now.rst = false) :
    step s = .next (nextCycle { s with regs := edge s.cfg s.regs s.env.now }) :=
  step_run hw hr

/-- The inputs of a cycle are gone when the next become current. -/
theorem nextCycle_forgets_now (s : State) (x : Inputs) :
    nextCycle { s with env := { s.env with now := x } } = nextCycle s := by
  cases h : s.env.coming with
  | nil => rw [nextCycle_nil h, nextCycle_nil (by exact h)]
  | cons y ys => rw [nextCycle_cons h, nextCycle_cons (by exact h)]

/-- The first cycle of a run that answers a next state. -/
theorem runCycles_succ_next {n : Nat} {s t : State} (h : runCycles (n + 1) s = .next t) :
    ∃ u, step s = .next u ∧ runCycles n u = .next t := by
  cases hs : step s with
  | next u => exact ⟨u, rfl, by simpa [runCycles, hs] using h⟩
  | fault f => simp [runCycles, hs] at h
  | refused r => simp [runCycles, hs] at h

/-- What every step keeps, every run keeps. -/
theorem runCycles_keeps {P : State → Prop} (hstep : ∀ s t, P s → step s = .next t → P t) {n : Nat} {s t : State}
    (hs : P s) (h : runCycles n s = .next t) : P t := by
  induction n generalizing s with
  | zero =>
    cases h
    exact hs
  | succ n ih =>
    obtain ⟨u, hu, hrun⟩ := runCycles_succ_next h
    exact ih (hstep s u hs hu) hrun

/-- Runs whose first cycles agree agree from there on. -/
theorem runCycles_succ_congr {s u : State} (h : step s = step u) (n : Nat) :
    runCycles (n + 1) s = runCycles (n + 1) u := by
  simp only [runCycles, h]

/-! ### What `start` does (R25, R82) -/

/-- An accepted read: every register is written with a constant (R27, R82). -/
theorem edge_accept {p : Params} {r : Regs} {x : Inputs} (hst : r.st = Code.idle) (hx : x.start = true) :
    edge p r x =
      { st := Code.startLow, frame := 0#40, bitcnt := 0#6, oe := true, out := false, status := Code.none,
        ticks := 0 } := by
  have hctl : stateControl r.st p r x =
      { lcmd := Code.driveLow, tcmd := Code.tmrReset, st := Code.startLow, frame := 0#40, bitcnt := 0#6,
        status := Code.none } := by
    rw [hst]
    exact if_pos hx
  rw [edge, hctl]
  rfl

/-- No operation but `IDLE`'s looks at `start` (R25). -/
theorem stateControl_ignores_start {c : StateCode} (hc : c ≠ Code.idle) (p : Params) (r : Regs) (x : Inputs)
    (b : Bool) : stateControl c p r { x with start := b } = stateControl c p r x := by
  rcases stateCode_cases c with h | h | h | h | h | h | h | h | h | h
  case inl => exact absurd h hc
  case inr.inr.inr.inr.inr.inr.inr.inr.inr => rw [stateControl_illegal h]
  all_goals
    subst h
    rfl

/-- Outside `IDLE` the registers after a cycle are the same whatever `start` is. -/
theorem edge_ignores_start {p : Params} {r : Regs} (hst : r.st ≠ Code.idle) (x : Inputs) (b : Bool) :
    edge p r { x with start := b } = edge p r x := by
  rw [edge, stateControl_ignores_start hst]
  rfl

/-! ### Establishing the invariant of R29 -/

/-- While a read is in progress, clauses (f) to (i) say no more than that `STATUS` is `NONE`. -/
theorem Inv.of_busy {p : Params} {r : Regs} (hlegal : legalState r) (hout : r.out = false)
    (hoe : r.oe = true ↔ r.st = Code.startLow) (hcount : bitCountFits r) (hframe : frameFits r)
    (hbusy : r.st ≠ Code.idle) (hstatus : r.status = Code.none) : Inv p r where
  legal := hlegal
  outLow := hout
  drivenOnlyInStartLow := hoe
  bitCount := hcount
  frameBits := hframe
  noStatusWhileBusy _ := hstatus
  noFrameUnlessOk hidle := absurd hidle hbusy
  legalStatus := by simp [hstatus]
  checksumHeld _ hok := by simp [hstatus] at hok

/-- In `IDLE` with the line released, what is left of the invariant is about `FRAME`, `BITCNT` and `STATUS`. -/
theorem Inv.of_idle {p : Params} {r : Regs} (hst : r.st = Code.idle) (hout : r.out = false) (hoe : r.oe = false)
    (hcount : r.bitcnt.toNat ≤ 40) (hframe : frameFits r) (hclear : r.status ≠ Code.ok → r.frame = 0#40)
    (hstatus : r.status.toNat ≤ 4)
    (hsum : p.checksumEn = true → r.status = Code.ok → checksumOk r.frame = true) : Inv p r where
  legal := by simp [legalState, hst]
  outLow := hout
  drivenOnlyInStartLow := by simp [hoe, hst]
  bitCount := by simp [bitCountFits, hst, hcount]
  frameBits := hframe
  noStatusWhileBusy hbusy := absurd hst hbusy
  noFrameUnlessOk _ := hclear
  legalStatus := hstatus
  checksumHeld := hsum

/-- A cleared frame fits any count of bits (R29 (e)). -/
theorem frameFits_of_frame_zero {r : Regs} (h : r.frame = 0#40) : frameFits r := by
  intro _
  simp [h]

theorem inv_reset (p : Params) : Inv p Regs.reset :=
  .of_idle rfl rfl rfl (by decide) (frameFits_of_frame_zero rfl) (fun _ => rfl) (by decide)
    fun _ h => absurd h (by decide)

/-! ### The clock edge keeps the invariant -/

section
variable {p : Params} {x : Inputs} {r : Regs}

theorem Inv.oe_eq_false (h : Inv p r) (hst : r.st ≠ Code.startLow) : r.oe = false := by
  cases hoe : r.oe with
  | false => rfl
  | true => exact absurd (h.drivenOnlyInStartLow.mp hoe) hst

/-- Before the first bit `BITCNT` is 0 (R29 (d)). -/
theorem Inv.bitcnt_eq_zero (h : Inv p r)
    (hst : r.st = Code.startLow ∨ r.st = Code.startSettle ∨ r.st = Code.awaitAckLow ∨ r.st = Code.awaitAckHigh
      ∨ r.st = Code.awaitDataStart) : r.bitcnt.toNat = 0 := by
  obtain ⟨_, _, _, hzero⟩ := h.bitCount
  exact hzero hst

/-- While bits are received `BITCNT` is below 40 (R29 (d)). -/
theorem Inv.bitcnt_lt (h : Inv p r) (hst : r.st = Code.bitLow ∨ r.st = Code.bitHigh) : r.bitcnt.toNat < 40 := by
  obtain ⟨_, hlt, _, _⟩ := h.bitCount
  exact hlt hst

/-- A count of 0 is in range in every state but `DONE`. -/
theorem bitCountFits_of_zero (hzero : r.bitcnt.toNat = 0) (hst : r.st ≠ Code.done) : bitCountFits r :=
  ⟨by omega, fun _ => by omega, fun hdone => absurd hdone hst, fun _ => hzero⟩

/-- A count below 40 is in range while bits are received. -/
theorem bitCountFits_of_lt (hlt : r.bitcnt.toNat < 40) (hst : r.st = Code.bitLow ∨ r.st = Code.bitHigh) :
    bitCountFits r := by
  refine ⟨hlt.le, fun _ => hlt, ?_, ?_⟩ <;> rcases hst with hst | hst <;> simp [hst]

/-- The invariant does not speak of `TICKS`, all that a cycle without a write moves. -/
theorem inv_keep (h : Inv p r) : Inv p (clockEdge p x (keep r) r) :=
  ⟨h.legal, h.outLow, h.drivenOnlyInStartLow, h.bitCount, h.frameBits, h.noStatusWhileBusy, h.noFrameUnlessOk,
    h.legalStatus, h.checksumHeld⟩

/-- `Fail(e)` discards the frame and releases the line (R124). -/
theorem inv_fail (h : Inv p r) {e : ResultCode} (he : e ≠ Code.ok) (hle : e.toNat ≤ 4) :
    Inv p (clockEdge p x (fail e r) r) :=
  .of_idle rfl h.outLow rfl (Nat.zero_le _) (frameFits_of_frame_zero rfl) (fun _ => rfl) hle
    fun _ hok => absurd hok he

/-- From a state that does not drive the line to another, with `BITCNT` in the new state's range. -/
theorem inv_moveOn (h : Inv p r) {n : StateCode} (hst : 2 ≤ r.st.toNat) (hn : 2 ≤ n.toNat ∧ n.toNat ≤ 8)
    (hcount : bitCountFits { r with st := n }) : Inv p (clockEdge p x (moveOn n r) r) := by
  have hne {a c : StateCode} (ha : 2 ≤ a.toNat) (hc : c.toNat < 2) : a ≠ c := by
    rintro rfl
    omega
  have hoe : r.oe = false := h.oe_eq_false (hne hst (by decide))
  exact .of_busy hn.2 h.outLow (iff_of_false (by simp [clockEdge_moveOn, hoe]) (hne hn.1 (by decide))) hcount
    h.frameBits (hne hn.1 (by decide)) (h.noStatusWhileBusy (hne hst (by decide)))

/-- A timed wait fails, takes its exit, or repeats (R81): only the exit is its own. -/
theorem inv_timedWait (h : Inv p r) {level : Bool} {e : ResultCode} {a : Ctl} (he : e ≠ Code.ok)
    (hle : e.toNat ≤ 4) (ha : Inv p (clockEdge p x a r)) :
    Inv p (clockEdge p x (timedWait level e a p r x) r) := by
  rcases timedWait_cases level e a p r x with ⟨_, hw⟩ | ⟨_, _, hw⟩ | ⟨_, _, hw⟩ <;> rw [hw]
  · exact inv_fail h he hle
  · exact ha
  · exact inv_keep h

/-! ### Each state operation keeps the invariant -/

theorem inv_ctlIdle (h : Inv p r) : Inv p (clockEdge p x (ctlIdle p r x) r) := by
  unfold ctlIdle
  split
  · exact .of_busy (by simp [legalState, clockEdge_st]) rfl (by simp [clockEdge_st, clockEdge_oe])
      (bitCountFits_of_zero rfl (by simp [clockEdge_st])) (frameFits_of_frame_zero rfl) (by simp [clockEdge_st]) rfl
  · exact inv_keep h

theorem inv_ctlStartLow (h : Inv p r) (hst : r.st = Code.startLow) : Inv p (clockEdge p x (ctlStartLow p r x) r) := by
  have hzero : r.bitcnt.toNat = 0 := h.bitcnt_eq_zero (by simp [hst])
  unfold ctlStartLow
  split
  · rw [clockEdge_release rfl]
    exact .of_busy (by simp [legalState, moveOn]) h.outLow (by simp [moveOn])
      (bitCountFits_of_zero hzero (by simp [moveOn])) h.frameBits (by simp [moveOn])
      (h.noStatusWhileBusy (by simp [hst]))
  · exact inv_keep h

theorem inv_ctlStartSettle (h : Inv p r) (hst : r.st = Code.startSettle) :
    Inv p (clockEdge p x (ctlStartSettle p r x) r) := by
  have hzero : r.bitcnt.toNat = 0 := h.bitcnt_eq_zero (by simp [hst])
  unfold ctlStartSettle
  split
  · exact inv_moveOn h (by simp [hst]) (by decide) (bitCountFits_of_zero hzero (by simp))
  · exact inv_keep h

/-- The three waits of the handshake: `BITCNT` stays 0 up to the first `BIT_LOW`. -/
theorem inv_handshakeWait (h : Inv p r) {level : Bool} {n : StateCode}
    (hst : r.st = Code.awaitAckLow ∨ r.st = Code.awaitAckHigh ∨ r.st = Code.awaitDataStart)
    (hn : 2 ≤ n.toNat ∧ n.toNat < 8) :
    Inv p (clockEdge p x (timedWait level Code.noResponse (moveOn n r) p r x) r) := by
  have hzero : r.bitcnt.toNat = 0 := h.bitcnt_eq_zero (.inr (.inr hst))
  have hne : n ≠ Code.done := by
    rintro rfl
    exact absurd hn.2 (by decide)
  refine inv_timedWait h (by decide) (by decide) (inv_moveOn h ?_ ⟨hn.1, hn.2.le⟩ (bitCountFits_of_zero hzero hne))
  rcases hst with hst | hst | hst <;> simp [hst]

theorem inv_ctlBitLow (h : Inv p r) (hst : r.st = Code.bitLow) : Inv p (clockEdge p x (ctlBitLow p r x) r) :=
  inv_timedWait h (by decide) (by decide)
    (inv_moveOn h (by simp [hst]) (by decide) (bitCountFits_of_lt (h.bitcnt_lt (.inl hst)) (.inr rfl)))

/-- The count of bits does not wrap before the frame is full. -/
theorem bitcnt_succ_toNat (hlt : r.bitcnt.toNat < 40) : (r.bitcnt + 1#6).toNat = r.bitcnt.toNat + 1 := by
  rw [BitVec.toNat_add_of_lt] <;> simp
  omega

/-- The decoded bit: the frame grows by one bit and `BITCNT` by one, to 40 exactly where `DONE` follows. -/
theorem inv_bitDecoded (h : Inv p r) (hst : r.st = Code.bitHigh) : Inv p (clockEdge p x (bitDecoded p r) r) := by
  have hlt : r.bitcnt.toNat < 40 := h.bitcnt_lt (.inr hst)
  have hsucc : (r.bitcnt + 1#6).toNat = r.bitcnt.toNat + 1 := bitcnt_succ_toNat hlt
  have hoe : r.oe = false := h.oe_eq_false (by simp [hst])
  have hstatus : r.status = Code.none := h.noStatusWhileBusy (by simp [hst])
  have hframe : frameFits (clockEdge p x (bitDecoded p r) r) := fun _ => by
    simpa [clockEdge_frame, clockEdge_bitcnt, bitDecoded, hsucc] using shiftIn_lt (h.frameBits hlt)
  rw [clockEdge_hold rfl] at hframe ⊢
  by_cases hlast : r.bitcnt = 39#6
  · refine .of_busy ?_ h.outLow ?_ ?_ hframe ?_ hstatus <;>
      simp [bitDecoded, legalState, bitCountFits, hlast, hoe]
  · have hnot : r.bitcnt.toNat ≠ 39 := fun heq => hlast (BitVec.eq_of_toNat_eq heq)
    refine .of_busy ?_ h.outLow ?_ (bitCountFits_of_lt ?_ (.inl ?_)) hframe ?_ hstatus <;>
      simp [bitDecoded, legalState, hlast, hoe, hsucc]
    omega

theorem inv_ctlBitHigh (h : Inv p r) (hst : r.st = Code.bitHigh) : Inv p (clockEdge p x (ctlBitHigh p r x) r) :=
  inv_timedWait h (by decide) (by decide) (inv_bitDecoded h hst)

/-- `DONE` takes the frame only if its checksum holds where checking is configured (R29 (i)). -/
theorem inv_ctlDone (h : Inv p r) (hst : r.st = Code.done) : Inv p (clockEdge p x (ctlDone p r x) r) := by
  have hoe : r.oe = false := h.oe_eq_false (by simp [hst])
  have hcount : r.bitcnt.toNat ≤ 40 := h.bitCount.1
  unfold ctlDone
  split
  · exact .of_idle rfl h.outLow hoe hcount (frameFits_of_frame_zero rfl) (fun _ => rfl) (by decide : 4 ≤ 4)
      fun _ hok => by simp [clockEdge_status, checksumError] at hok
  next hverdict =>
    refine .of_idle rfl h.outLow hoe hcount h.frameBits (fun hne => absurd rfl hne) (by decide : 1 ≤ 4) ?_
    intro hen _
    simpa [clockEdge_frame, success, hen] using hverdict

/-- R29 for one cycle with `rst` = 0: whichever operation `ST` selects, the invariant holds after it. -/
theorem inv_edge (h : Inv p r) : Inv p (edge p r x) := by
  unfold edge
  rcases stateCode_cases r.st with hst | hst | hst | hst | hst | hst | hst | hst | hst | hst
  case inr.inr.inr.inr.inr.inr.inr.inr.inr =>
    have hlegal : r.st.toNat ≤ 8 := h.legal
    omega
  all_goals rw [hst]
  · exact inv_ctlIdle h
  · exact inv_ctlStartLow h hst
  · exact inv_ctlStartSettle h hst
  · exact inv_handshakeWait h (.inl hst) (by decide)
  · exact inv_handshakeWait h (.inr (.inl hst)) (by decide)
  · exact inv_handshakeWait h (.inr (.inr hst)) (by decide)
  · exact inv_ctlBitLow h hst
  · exact inv_ctlBitHigh h hst
  · exact inv_ctlDone h hst

end

/-- R29: every step keeps the invariant; a reset cycle establishes it anew. -/
theorem inv_step {s t : State} (h : Inv s.cfg s.regs) (hs : step s = .next t) : Inv t.cfg t.regs := by
  obtain ⟨_, ⟨_, rfl⟩ | ⟨_, rfl⟩⟩ := step_next hs
  · simpa using inv_reset s.cfg
  · simpa [edge] using inv_edge (x := s.env.now) h

end Sys2Proof.Machine

/-! ### The statements -/

namespace Sys2Proof.Proofs

open Sys2Proof.Machine

/-- Settles O6: a reset cycle is `Regs.reset` with the next inputs, and the ports are functions of the registers. -/
theorem resetLeavesTheResetState : Obligations.ResetLeavesTheResetState := by
  refine ⟨fun s hw hr => ⟨nextCycle (resetCycle s), step_reset hw hr, ?_, ?_⟩, rfl⟩
  · rw [nextCycle_regs, resetCycle_regs]
    rfl
  · rw [nextCycle_regs, resetCycle_regs]
    decide

/-- Settles O20: `IDLE` accepts; in every other state neither the registers nor the inputs to come depend on `start`. -/
theorem startIsLookedAtInIdleOnly : Obligations.StartIsLookedAtInIdleOnly := by
  refine ⟨fun s hw hr hst hx => ⟨_, step_edge hw hr, ?_⟩, fun s b hw hr hst => ?_⟩
  · rw [nextCycle_regs, edge_accept hst hx]
  · rw [step_edge hw hr, step_edge (by exact hw) (by exact hr), edge_ignores_start hst]
    exact congrArg _ (nextCycle_forgets_now { s with regs := edge s.cfg s.regs s.env.now } _)

/-- Settles O35: the invariant holds of the reset registers and every step keeps it. -/
theorem reachableStatesSatisfyTheInvariant : Obligations.ReachableStatesSatisfyTheInvariant := by
  intro n s t _ hreset hrun
  have hinit : Inv s.cfg s.regs := hreset ▸ inv_reset s.cfg
  exact runCycles_keeps (P := fun s => Inv s.cfg s.regs) (fun _ _ => inv_step) hinit hrun

/-- Settles O39: an accepted read writes every register with a constant, so the two machines are the same state after
the accepting cycle. -/
theorem readsDoNotLeak : Obligations.ReadsDoNotLeak := by
  intro s u n hw hcfg henv hr hx hs hu
  have hsteps : step s = step u := by
    rw [step_edge hw hr, step_edge (hcfg ▸ hw) (henv ▸ hr), edge_accept hs hx, edge_accept hu (henv ▸ hx),
      hcfg, henv]
  exact runCycles_succ_congr hsteps n

end Sys2Proof.Proofs

/-! ## Proofs: the codes and what a cycle decides (spec/30_encoding.md)

First the five timed waits as one operation with its level, its error and its exit, then the inversion lemma of
`stateControl`: everything a cycle without reset can decide. Then the statements. -/

namespace Sys2Proof.Machine

section
variable {p : Params} {x : Inputs} {r : Regs}

/-! ### The timed waits as one (R81) -/

/-- The six kinds of `ST` code: the five timed waits are one of them. -/
theorem stateCode_kinds (c : StateCode) :
    c = Code.idle ∨ c = Code.startLow ∨ c = Code.startSettle ∨ isTimedWait c = true ∨ c = Code.done
      ∨ 9 ≤ c.toNat := by
  revert c; decide

/-- The timed waits by their codes (R13). -/
theorem isTimedWait_iff (c : StateCode) :
    isTimedWait c = true ↔ c = Code.awaitAckLow ∨ c = Code.awaitAckHigh ∨ c = Code.awaitDataStart ∨ c = Code.bitLow
      ∨ c = Code.bitHigh := by
  revert c; decide

/-- No timed wait is the idle state, a delay, or `DONE` (R13). -/
theorem ne_of_isTimedWait {c : StateCode} (h : isTimedWait c = true) :
    c ≠ Code.idle ∧ c ≠ Code.startLow ∧ c ≠ Code.startSettle ∧ c ≠ Code.done := by
  revert c; decide

/-- What the timed wait in `ST` does on its level: "A; ST <- N" of R81, with the decoded bit in `BIT_HIGH` (R97). -/
def waitExit (p : Params) (r : Regs) : Ctl :=
  if r.st = Code.bitHigh then bitDecoded p r else moveOn (waitSuccessor r.st r.bitcnt) r

/-- R85, R86, R87, R96, R97 in one: each timed wait is `Wait` with its own level, error and exit. -/
theorem stateControl_timedWait (h : isTimedWait r.st = true) :
    stateControl r.st p r x = timedWait (awaitedLevel r.st) (waitError r.st) (waitExit p r) p r x := by
  rcases (isTimedWait_iff r.st).mp h with hst | hst | hst | hst | hst <;>
    rw [waitExit, hst] <;> rfl

@[simp] theorem waitExit_lcmd : (waitExit p r).lcmd = Code.hold := by
  unfold waitExit
  split <;> rfl

@[simp] theorem waitExit_status : (waitExit p r).status = r.status := by
  unfold waitExit
  split <;> rfl

/-- Only the 40th bit leaves its wait without a timer reset (R97). -/
theorem waitExit_tcmd :
    (waitExit p r).tcmd = if r.st = Code.bitHigh ∧ r.bitcnt = 39#6 then Code.tmrCount else Code.tmrReset := by
  unfold waitExit
  by_cases hst : r.st = Code.bitHigh <;> simp [hst, bitDecoded, moveOn]

/-- A wait's exit goes where R90 says. -/
theorem waitExit_st : (waitExit p r).st = waitSuccessor r.st r.bitcnt := by
  unfold waitExit
  split
  next hst => simp [bitDecoded, waitSuccessor, hst]
  next => rfl

theorem waitSuccessor_legal (c : StateCode) (n : BitCount) : (waitSuccessor c n).toNat ≤ 8 := by
  unfold waitSuccessor
  split_ifs <;> decide

/-! ### What a cycle can decide -/

/-- The decisions of a cycle with `rst` = 0, each with the condition it is taken under; `keep` stands for every cycle
that writes nothing. -/
inductive Decision (p : Params) (r : Regs) (x : Inputs) : Ctl → Prop where
  /-- No write. -/
  | keep : Decision p r x (keep r)
  /-- R82. -/
  | accept (hst : r.st = Code.idle) (hx : x.start = true) : Decision p r x
      { lcmd := Code.driveLow, tcmd := Code.tmrReset, st := Code.startLow, frame := 0#40, bitcnt := 0#6,
        status := Code.none }
  /-- R83. -/
  | release (hst : r.st = Code.startLow) (ht : p.tStart ≤ r.ticks) :
      Decision p r x { moveOn Code.startSettle r with lcmd := Code.releaseHigh }
  /-- R84. -/
  | settled (hst : r.st = Code.startSettle) (ht : p.tSettle ≤ r.ticks) : Decision p r x (moveOn Code.awaitAckLow r)
  /-- R81, R124. -/
  | timeout (hst : isTimedWait r.st = true) (ht : p.tTimeout ≤ r.ticks) : Decision p r x (fail (waitError r.st) r)
  /-- R81. -/
  | level (hst : isTimedWait r.st = true) (ht : r.ticks < p.tTimeout) (hx : x.lineIn = awaitedLevel r.st) :
      Decision p r x (waitExit p r)
  /-- R110, R125. -/
  | reject (hst : r.st = Code.done) (hsum : p.checksumEn = true ∧ checksumOk r.frame = false) :
      Decision p r x (checksumError r)
  /-- R110. -/
  | take (hst : r.st = Code.done) (hsum : p.checksumEn = false ∨ checksumOk r.frame = true) : Decision p r x (success r)
  /-- R50. -/
  | recover (hst : 9 ≤ r.st.toNat) : Decision p r x (recovery r)

/-- The inversion lemma: whatever `ST` is, a cycle decides one of these. -/
theorem stateControl_decision (p : Params) (r : Regs) (x : Inputs) : Decision p r x (stateControl r.st p r x) := by
  rcases stateCode_kinds r.st with hst | hst | hst | hst | hst | hst
  · rw [hst]
    change Decision p r x (ctlIdle p r x)
    unfold ctlIdle
    split
    next hx => exact .accept hst hx
    next => exact .keep
  · rw [hst]
    change Decision p r x (ctlStartLow p r x)
    unfold ctlStartLow
    split
    next ht => exact .release hst ((startOver_iff p r).mp ht)
    next => exact .keep
  · rw [hst]
    change Decision p r x (ctlStartSettle p r x)
    unfold ctlStartSettle
    split
    next ht => exact .settled hst ((settleOver_iff p r).mp ht)
    next => exact .keep
  · rw [stateControl_timedWait hst]
    rcases timedWait_cases (awaitedLevel r.st) (waitError r.st) (waitExit p r) p r x with
      ⟨ht, hw⟩ | ⟨ht, hx, hw⟩ | ⟨_, _, hw⟩ <;> rw [hw]
    · exact .timeout hst ht
    · exact .level hst ht hx
    · exact .keep
  · rw [hst]
    change Decision p r x (ctlDone p r x)
    unfold ctlDone
    split
    next hsum => exact .reject hst (by simpa using hsum)
    next hsum => exact .take hst (by simpa [or_iff_not_imp_left] using hsum)
  · rw [stateControl_illegal hst]
    exact .recover hst

/-- The error of a timed wait is a code of R121. -/
theorem waitError_legal (c : StateCode) : (waitError c).toNat ≤ 4 := by
  unfold waitError
  split <;> decide

/-- `LCMD` = 3 is not among the commands a cycle can decide (R51). -/
theorem Decision.lcmd_ne_reserved {c : Ctl} (h : Decision p r x c) : c.lcmd ≠ 3#2 := by
  cases h with
  | level => simp
  | keep | accept | release | settled | timeout | reject | take | recover =>
    simp [moveOn, fail, checksumError, success, recovery]

/-- `STATUS` gets a legal code or is kept (R51). -/
theorem Decision.status_legal_or_kept {c : Ctl} (h : Decision p r x c) : c.status.toNat ≤ 4 ∨ c.status = r.status := by
  cases h with
  | keep | release | settled => exact .inr rfl
  | level => exact .inr waitExit_status
  | timeout => exact .inl (waitError_legal _)
  | accept | reject | take | recover => exact .inl (by simp [checksumError, success, recovery])

/-- Every state a cycle goes to is legal (R50); only a cycle that writes nothing keeps `ST` as it was. -/
theorem Decision.st_legal {c : Ctl} (h : Decision p r x c) (hlegal : legalState r) : c.st.toNat ≤ 8 := by
  cases h with
  | keep => exact hlegal
  | level => exact waitExit_st ▸ waitSuccessor_legal r.st r.bitcnt
  | accept | release | settled | timeout | reject | take | recover =>
    simp [moveOn, fail, checksumError, success, recovery]

/-! ### The illegal and the reserved codes (R50, R51) -/

/-- The recovery at the clock edge (R50). -/
theorem edge_illegal (h : 9 ≤ r.st.toNat) :
    edge p r x =
      { st := Code.idle, frame := 0#40, bitcnt := 0#6, oe := false, out := r.out, status := Code.none,
        ticks := countTicks p x r.ticks } := by
  rw [edge, stateControl_illegal h]
  rfl

theorem decodeResult_reserved {c : ResultCode} (h : 5 ≤ c.toNat) : decodeResult c = .error (.reservedResult c) := by
  revert c; decide

/-! ### Executing the operation whose code is `ST` (R55) -/

/-- The operation `ST` decodes to, executed, is the cycle of what `stateControl` decides for that code. -/
theorem exec_of_decode_state {s : State} {i : Instr} (h : decode (.state s.regs.st) = .ok i) :
    exec i s = .next (runControl (stateControl s.regs.st) s) := by
  rcases stateCode_cases s.regs.st with hst | hst | hst | hst | hst | hst | hst | hst | hst | hst
  case inr.inr.inr.inr.inr.inr.inr.inr.inr =>
    rw [decode, decodeState_illegal hst] at h
    cases h
  all_goals
    rw [hst] at h ⊢
    cases h
    rfl

/-! ### The commands of a cycle (R56) -/

/-- The commands of a timed wait: those of `Fail`, of its exit, or none (R81). -/
theorem timedWait_commands (level : Bool) (e : ResultCode) (a : Ctl) :
    ((timedWait level e a p r x).lcmd, (timedWait level e a p r x).tcmd) =
      if p.tTimeout ≤ r.ticks then (Code.releaseHigh, Code.tmrCount)
      else if x.lineIn = level then (a.lcmd, a.tcmd)
      else (Code.hold, Code.tmrCount) := by
  rcases timedWait_cases level e a p r x with ⟨ht, hw⟩ | ⟨ht, hx, hw⟩ | ⟨ht, hx, hw⟩
  · simp [hw, ht, fail]
  · simp [hw, hx, Nat.not_le.mpr ht]
  · simp [hw, hx, Nat.not_le.mpr ht]

/-- `DONE` issues no command, whatever its verdict (R56). -/
theorem ctlDone_commands : ((ctlDone p r x).lcmd, (ctlDone p r x).tcmd) = (Code.hold, Code.tmrCount) := by
  unfold ctlDone
  split <;> rfl

/-- In a cycle without reset the commands are the ones the state operation decides. -/
theorem issued_commands {s : State} (hr : s.env.now.rst = false) :
    (issuedLine s, issuedTimer s) =
      ((stateControl s.regs.st s.cfg s.regs s.env.now).lcmd, (stateControl s.regs.st s.cfg s.regs s.env.now).tcmd) := by
  simp [issuedLine, issuedTimer, hr]

end

end Sys2Proof.Machine

/-! ### The statements -/

namespace Sys2Proof.Proofs

open Sys2Proof.Machine

/-- Settles O12: `IDLE`, the two delays and `DONE` by their own branches, the five timed waits by the one form they
share. -/
theorem commandsOfEachOperation : Obligations.CommandsOfEachOperation := by
  intro s hr hlegal
  rw [issued_commands hr]
  rcases stateCode_kinds s.regs.st with hst | hst | hst | hst | hst | hst
  · rw [hst]
    cases hx : s.env.now.start <;> simp [stateControl, ctlIdle, hx]
  · rw [hst]
    by_cases ht : s.cfg.tStart ≤ s.regs.ticks <;> simp [stateControl, ctlStartLow, ht, moveOn]
  · rw [hst]
    by_cases ht : s.cfg.tSettle ≤ s.regs.ticks <;> simp [stateControl, ctlStartSettle, ht, moveOn]
  · obtain ⟨hidle, hpulse, hsettle, hdone⟩ := ne_of_isTimedWait hst
    rw [if_neg hidle, if_neg hpulse, if_neg hsettle, if_neg hdone, stateControl_timedWait hst, timedWait_commands,
      waitExit_lcmd, waitExit_tcmd]
    by_cases hlast : s.regs.st = Code.bitHigh ∧ s.regs.bitcnt = 39#6 <;> simp [hlast]
  · rw [hst]
    exact ctlDone_commands (x := s.env.now)
  · omega

/-- Settles O3: no decision of a cycle has a reserved code in it, and a reset clears `STATUS`. -/
theorem reservedCodesAreInert : Obligations.ReservedCodesAreInert := by
  refine ⟨fun s => ?_, fun _ => rfl, rfl, fun _ => decodeResult_reserved, fun s t hs => ?_⟩
  · unfold issuedLine
    split
    · decide
    · exact (stateControl_decision _ _ _).lcmd_ne_reserved
  · obtain ⟨_, ⟨_, rfl⟩ | ⟨_, rfl⟩⟩ := step_next hs
    · exact .inl (by simp [Regs.reset])
    · simpa [clockEdge_status] using (stateControl_decision _ _ _).status_legal_or_kept

/-- Settles O7: the recovery is one clock edge, and a cycle goes to legal states only. -/
theorem illegalStateRecovers : Obligations.IllegalStateRecovers := by
  refine ⟨fun s hw hr hst => ⟨_, step_edge hw hr, ?_⟩, fun s t hs hlegal => ?_⟩
  · rw [nextCycle_regs, edge_illegal hst]
    rfl
  · obtain ⟨_, ⟨_, rfl⟩ | ⟨_, rfl⟩⟩ := step_next hs
    · simp [legalState, Regs.reset]
    · simpa [legalState, clockEdge_st] using (stateControl_decision _ _ _).st_legal hlegal

/-- Settles O4: the operation and the step are the same clock edge. -/
theorem stepRunsTheOperationOfST : Obligations.StepRunsTheOperationOfST :=
  ⟨fun _ _ hw hr hi => ⟨_, exec_of_decode_state hi, step_run hw hr⟩, fun _ hw hr => step_reset hw hr⟩

end Sys2Proof.Proofs

/-! ## Proofs: the counter (spec/41_timer_watchdog.md)

First a step without reset inverted, then `TICKS` after a cycle by the timer command the cycle issues. Then the statement. -/

namespace Sys2Proof.Machine

/-- The inversion of `step_edge`: a step with `rst` = 0 that answers `t` went over `edge`. -/
theorem step_next_edge {s t : State} (hr : s.env.now.rst = false) (hs : step s = .next t) :
    t = nextCycle { s with regs := edge s.cfg s.regs s.env.now } := by
  obtain ⟨hw, _⟩ := step_next hs
  exact Host.Outcome.next.inj (hs.symm.trans (step_edge hw hr))

/-- The timer command of a cycle without reset is the one the operation in `ST` decides (R48, R55). -/
theorem issuedTimer_run {s : State} (hr : s.env.now.rst = false) :
    issuedTimer s = (stateControl s.regs.st s.cfg s.regs s.env.now).tcmd :=
  congrArg Prod.snd (issued_commands hr)

/-- TMR at the clock edge of a cycle without reset: the issued command decides, a reset before a count (R71, R73). -/
theorem edge_ticks_of_issuedTimer {s : State} (hr : s.env.now.rst = false) :
    (edge s.cfg s.regs s.env.now).ticks =
      if issuedTimer s = Code.tmrReset then 0 else countTicks s.cfg s.env.now s.regs.ticks := by
  rw [edge, clockEdge_ticks, issuedTimer_run hr]

end Sys2Proof.Machine

/-! ### The statement -/

namespace Sys2Proof.Proofs

open Sys2Proof.Machine

/-- Settles O17: a step with `rst` = 0 is one clock edge, where TMR takes the issued command. -/
theorem counterCountsTicks : Obligations.CounterCountsTicks := by
  intro s t hr hs
  rw [step_next_edge hr hs, nextCycle_regs]
  exact edge_ticks_of_issuedTimer hr

end Sys2Proof.Proofs

/-! ## Proofs: the handshake (spec/42_handshake.md)

First the clock edge of each state operation in the terms of R90, one lemma per operation and one for the timed wait they
share; then a whole cycle against the table. Then the statements. -/

namespace Sys2Proof.Machine

section
variable {p : Params} {x : Inputs} {r : Regs}

/-! ### Each state operation at the clock edge -/

/-- `IDLE` (R82). -/
theorem clockEdge_ctlIdle :
    clockEdge p x (ctlIdle p r x) r =
      if x.start then
        { st := Code.startLow, frame := 0#40, bitcnt := 0#6, oe := true, out := false, status := Code.none, ticks := 0 }
      else tableCount p x r := by
  unfold ctlIdle
  split <;> rfl

/-- `START_LOW` (R83). -/
theorem clockEdge_ctlStartLow :
    clockEdge p x (ctlStartLow p r x) r =
      if p.tStart ≤ r.ticks then { r with st := Code.startSettle, oe := false, ticks := 0 }
      else tableCount p x r := by
  simp only [ctlStartLow, startOver_iff]
  split <;> rfl

/-- `START_SETTLE` (R84). -/
theorem clockEdge_ctlStartSettle :
    clockEdge p x (ctlStartSettle p r x) r =
      if p.tSettle ≤ r.ticks then { r with st := Code.awaitAckLow, ticks := 0 } else tableCount p x r := by
  simp only [ctlStartSettle, settleOver_iff]
  split <;> rfl

/-- A timed wait is three rows of R90, whatever its exit: timeout, level seen, level not seen (R81). -/
theorem clockEdge_timedWait (level : Bool) (e : ResultCode) (a : Ctl) :
    clockEdge p x (timedWait level e a p r x) r = tableWait p x r level e (clockEdge p x a r) := by
  unfold tableWait
  rcases timedWait_cases level e a p r x with ⟨ht, hw⟩ | ⟨ht, hx, hw⟩ | ⟨ht, hx, hw⟩ <;> rw [hw]
  · rw [if_pos ht]
    rfl
  · rw [if_neg (Nat.not_le.mpr ht), if_pos hx]
  · rw [if_neg (Nat.not_le.mpr ht), if_neg hx]
    rfl

/-- A timed wait that goes on to `n` with a timer reset (R85, R86, R87, R96). -/
theorem clockEdge_timedWait_moveOn (level : Bool) (e : ResultCode) (n : StateCode) :
    clockEdge p x (timedWait level e (moveOn n r) p r x) r = tableWait p x r level e { r with st := n, ticks := 0 } :=
  clockEdge_timedWait level e (moveOn n r)

/-- The decoded bit (R97): the 40th goes to `DONE` and lets the counter count. -/
theorem clockEdge_bitDecoded :
    clockEdge p x (bitDecoded p r) r =
      if r.bitcnt = 39#6 then
        { r with st := Code.done, frame := shiftIn r.frame (decide (p.tBit < r.ticks)), bitcnt := 40#6,
                 ticks := countTicks p x r.ticks }
      else
        { r with st := Code.bitLow, frame := shiftIn r.frame (decide (p.tBit < r.ticks)),
                 bitcnt := r.bitcnt + 1#6, ticks := 0 } := by
  rw [clockEdge_hold rfl]
  by_cases hlast : r.bitcnt = 39#6 <;> simp [bitDecoded, longPulse, hlast]

/-- `DONE` (R110): the frame is taken unless checking is configured and its checksum fails. -/
theorem clockEdge_ctlDone :
    clockEdge p x (ctlDone p r x) r =
      if p.checksumEn = false ∨ checksum r.frame = byte4 r.frame then
        { r with st := Code.idle, status := Code.ok, ticks := countTicks p x r.ticks }
      else
        { r with st := Code.idle, status := Code.checksumMismatch, frame := 0#40,
                 ticks := countTicks p x r.ticks } := by
  have hverdict : (p.checksumEn && !checksumOk r.frame) = true ↔
      ¬ (p.checksumEn = false ∨ checksum r.frame = byte4 r.frame) := by
    simp [checksumOk]
  simp only [ctlDone, hverdict, ite_not]
  split <;> rfl

/-! ### A cycle is a row of R90 -/

/-- The codes that R90 does not list take its last row, the recovery of R50. -/
theorem transitionTable_illegal (h : 9 ≤ r.st.toNat) :
    transitionTable p r x =
      { st := Code.idle, frame := 0#40, bitcnt := 0#6, oe := false, out := r.out, status := Code.none,
        ticks := countTicks p x r.ticks } := by
  have hne {c : StateCode} (hc : c.toNat ≤ 8) : r.st ≠ c := by
    rintro rfl
    omega
  simp [transitionTable, hne]

/-- R90: the clock edge of the operation in `ST` writes the registers as the table does. -/
theorem edge_eq_transitionTable : edge p r x = transitionTable p r x := by
  rcases stateCode_cases r.st with hst | hst | hst | hst | hst | hst | hst | hst | hst | hst
  case inr.inr.inr.inr.inr.inr.inr.inr.inr => rw [edge_illegal hst, transitionTable_illegal hst]
  all_goals rw [edge, transitionTable, hst]
  · exact clockEdge_ctlIdle
  · simp only [← Nat.not_le, ite_not]
    exact clockEdge_ctlStartLow
  · simp only [← Nat.not_le, ite_not]
    exact clockEdge_ctlStartSettle
  · exact clockEdge_timedWait_moveOn _ _ _
  · exact clockEdge_timedWait_moveOn _ _ _
  · exact clockEdge_timedWait_moveOn _ _ _
  · exact clockEdge_timedWait_moveOn _ _ _
  · rw [← clockEdge_bitDecoded]
    exact clockEdge_timedWait _ _ _
  · exact clockEdge_ctlDone

end

/-- A state operation executed is its control's clock edge on the registers, all else left. -/
theorem next_runControl {f : Control} {s : State} {r : Regs}
    (h : clockEdge s.cfg s.env.now (f s.cfg s.regs s.env.now) s.regs = r) :
    (.next (runControl f s) : Host.Outcome State Fault Refusal) = .next { s with regs := r } := by
  rw [runControl, h]

end Sys2Proof.Machine

/-! ### The statements -/

namespace Sys2Proof.Proofs

open Sys2Proof.Machine

/-- Settles O11: a step with `rst` = 0 goes over `edge`, which is the table. -/
theorem machineFollowsTheTransitionTable : Obligations.MachineFollowsTheTransitionTable := by
  intro s hw hr
  refine ⟨_, step_edge hw hr, ?_, ?_⟩
  · rw [nextCycle_regs]
    exact edge_eq_transitionTable
  · rw [nextCycle_cfg]

/-- Settles O21: `IDLE` at the clock edge. -/
theorem idleAcceptsARead : Obligations.IdleAcceptsARead :=
  ⟨rfl, fun _ => next_runControl clockEdge_ctlIdle⟩

/-- Settles O23: `START_SETTLE` at the clock edge. -/
theorem startSettleWaits : Obligations.StartSettleWaits :=
  ⟨rfl, fun _ => next_runControl clockEdge_ctlStartSettle⟩

/-- Settles O24: the three are one timed wait, with their own levels and successors. -/
theorem acknowledgementWaits : Obligations.AcknowledgementWaits := by
  refine ⟨rfl, rfl, rfl, fun s => ⟨?_, ?_, ?_⟩⟩
  · exact next_runControl (clockEdge_timedWait_moveOn false Code.noResponse Code.awaitAckHigh)
  · exact next_runControl (clockEdge_timedWait_moveOn true Code.noResponse Code.awaitDataStart)
  · exact next_runControl (clockEdge_timedWait_moveOn false Code.noResponse Code.bitLow)

end Sys2Proof.Proofs

/-! ## Proofs: bit decoding (spec/43_bit_decode_frame.md)

First what the frame shifter and the source's byte accumulator have in common: both are one shifter, at two widths. Then
`BIT_HIGH` at the clock edge, a timed wait at its timeout, and the ports without a finished read. Then the statements. -/

namespace Sys2Proof.Machine

/-! ### The shifter at any width (R99, R103) -/

section
variable {w : Nat}

/-- `(v << 1) | bit` on `w` bits: the frame shifter at 40 (`shiftIn`), the source's byte accumulator at 8
(`byteShift`). -/
def shiftBit (v : BitVec w) (bit : Bool) : BitVec w := (v <<< 1) ||| (BitVec.ofBool bit).setWidth w

theorem shiftAll_eq_foldl_shiftBit (f : FrameWord) (bits : List Bool) : shiftAll f bits = bits.foldl shiftBit f := rfl

theorem byteShift_eq_shiftBit : byteShift = shiftBit := rfl

theorem shiftBit_getLsbD_zero (v : BitVec w) (bit : Bool) (hw : 0 < w) : (shiftBit v bit).getLsbD 0 = bit := by
  simp [shiftBit, hw]

theorem shiftBit_getLsbD_succ (v : BitVec w) (bit : Bool) {i : Nat} (hi : i + 1 < w) :
    (shiftBit v bit).getLsbD (i + 1) = v.getLsbD i := by
  simp [shiftBit, hi, BitVec.getLsbD_eq_getElem (Nat.lt_of_succ_lt hi)]

/-- Whatever the shifter held before, its low bits are the bits that arrived, the last one at bit 0. -/
theorem reverse_getElem?_eq_foldl_shiftBit (v : BitVec w) (bits : List Bool) {i : Nat} (hi : i < bits.length)
    (hw : i < w) : bits.reverse[i]? = some ((bits.foldl shiftBit v).getLsbD i) := by
  induction bits using List.reverseRecOn generalizing i with
  | nil => simp at hi
  | append_singleton earlier bit ih =>
    rw [List.foldl_append, List.foldl_cons, List.foldl_nil, List.reverse_append]
    cases i with
    | zero => simp [shiftBit_getLsbD_zero _ _ hw]
    | succ i =>
      rw [shiftBit_getLsbD_succ _ _ hw, ← ih (by simpa using hi) (by omega)]
      simp

/-- The same in order of arrival: after `n` bits the `k`-th stands at bit `n - 1 - k`. -/
theorem getElem?_eq_foldl_shiftBit (v : BitVec w) (bits : List Bool) {k : Nat} (hk : k < bits.length)
    (hw : bits.length - 1 - k < w) :
    bits[k]? = some ((bits.foldl shiftBit v).getLsbD (bits.length - 1 - k)) := by
  rw [← reverse_getElem?_eq_foldl_shiftBit v bits (by omega) hw, List.getElem?_reverse (by omega)]
  congr 1
  omega

/-- A field of `m` bits of a shifter is what a shifter of `m` bits makes of the bits that arrived there: `skip` bits arrived
before the field's, and `start` bits after them. -/
theorem extractLsb'_foldl_shiftBit (v : BitVec w) {m : Nat} (u : BitVec m) (bits : List Bool) {skip start : Nat}
    (hlen : bits.length = skip + m + start) (hw : start + m ≤ w) :
    (bits.foldl shiftBit v).extractLsb' start m = ((bits.drop skip).take m).foldl shiftBit u := by
  have hfield : ((bits.drop skip).take m).length = m := by
    rw [List.length_take, List.length_drop]
    omega
  refine BitVec.eq_of_getLsbD_eq fun i hi => ?_
  apply Option.some.inj
  calc some (((bits.foldl shiftBit v).extractLsb' start m).getLsbD i)
      = some ((bits.foldl shiftBit v).getLsbD (start + i)) := by simp [hi]
    _ = bits.reverse[start + i]? := (reverse_getElem?_eq_foldl_shiftBit v bits (by omega) (by omega)).symm
    _ = bits[skip + (m - 1 - i)]? := by
        rw [List.getElem?_reverse (by omega)]
        congr 1
        omega
    _ = ((bits.drop skip).take m)[m - 1 - i]? := by
        rw [List.getElem?_take_of_lt (by omega), List.getElem?_drop]
    _ = ((bits.drop skip).take m).reverse[i]? := by rw [List.getElem?_reverse (by omega), hfield]
    _ = some ((((bits.drop skip).take m).foldl shiftBit u).getLsbD i) :=
        reverse_getElem?_eq_foldl_shiftBit u _ (by omega) hi

end

section
variable {p : Params} {x : Inputs} {r : Regs}

/-! ### `BIT_HIGH` at the clock edge (R97) -/

/-- The frame with the bit of the discriminator shifted in (R76, R98, R99). -/
theorem shiftIn_longPulse :
    shiftIn r.frame (longPulse p r) = (r.frame <<< 1) ||| (if p.tBit < r.ticks then 1#40 else 0#40) := by
  by_cases hbit : p.tBit < r.ticks <;> simp [shiftIn, longPulse, hbit]

/-- `BIT_HIGH` (R97): the three rows of a timed wait, with the decoded bit on the level. -/
theorem clockEdge_ctlBitHigh :
    clockEdge p x (ctlBitHigh p r x) r =
      tableWait p x r false Code.frameTimeout
        { r with
          frame := (r.frame <<< 1) ||| (if p.tBit < r.ticks then 1#40 else 0#40)
          bitcnt := r.bitcnt + 1#6
          st := if r.bitcnt = 39#6 then Code.done else Code.bitLow
          ticks := if r.bitcnt = 39#6 then countTicks p x r.ticks else 0 } := by
  rw [ctlBitHigh, clockEdge_timedWait, clockEdge_hold rfl, ← shiftIn_longPulse]
  by_cases hlast : r.bitcnt = 39#6 <;> simp [bitDecoded, hlast]

/-! ### A timeout and the result ports (R81, R104, R113) -/

/-- A timed wait at its timeout enters `Fail` with its own error, whatever the line shows and whatever the frame holds. -/
theorem edge_timeout (hst : isTimedWait r.st = true) (ht : p.tTimeout ≤ r.ticks) :
    edge p r x = tableFail (waitError r.st) p x r := by
  rw [edge, stateControl_timedWait hst, timedWait_timeout ht]
  rfl

/-- Without a finished read the result ports show `valid` = 0 and zero data (R113). -/
theorem outputs_of_status_ne_ok (h : r.status ≠ Code.ok) :
    (outputs r).valid = false ∧ (outputs r).raw = 0#40 ∧ (outputs r).humX10 = 0#12 ∧ (outputs r).tempX10 = 0#12 := by
  have hvalid : valid r = false := Bool.eq_false_iff.mpr ((valid_iff r).not.mpr h)
  simp [outputs, hvalid]

end

end Sys2Proof.Machine

/-! ### The statements -/

namespace Sys2Proof.Proofs

open Sys2Proof.Machine

/-- Settles O31: both bit states are timed waits with the error `FrameTimeout`, and `Fail` clears all they gathered. -/
theorem partialFrameIsDiscarded : Obligations.PartialFrameIsDiscarded := by
  intro s hw hr hst ht
  have hwait : isTimedWait s.regs.st = true := (isTimedWait_iff _).mpr (.inr (.inr (.inr hst)))
  have herror : waitError s.regs.st = Code.frameTimeout := if_pos hst
  refine ⟨_, step_edge hw hr, ?_⟩
  rw [nextCycle_regs, edge_timeout hwait ht, herror]
  exact ⟨rfl, rfl, rfl, rfl, outputs_of_status_ne_ok (by simp [tableFail])⟩

/-- Settles O44: the frame shifter and the byte accumulator are one shifter, and a byte is a field of the frame. -/
theorem shifterAccumulatesFiveBytes : Obligations.ShifterAccumulatesFiveBytes := by
  intro f b bits hlen
  rw [shiftAll_eq_foldl_shiftBit, byteShift_eq_shiftBit]
  refine ⟨fun k hk => ?_, fun j hj => ?_⟩
  · simpa [hlen] using getElem?_eq_foldl_shiftBit f bits (k := k) (by omega) (by omega)
  · exact extractLsb'_foldl_shiftBit f b bits (by omega) (by omega)

/-- Settles O25: a timed wait that goes on to `BIT_HIGH`. -/
theorem bitLowWaitsForHigh : Obligations.BitLowWaitsForHigh :=
  ⟨rfl, fun _ => next_runControl (clockEdge_timedWait_moveOn true Code.frameTimeout Code.bitHigh)⟩

/-- Settles O26: `BIT_HIGH` at the clock edge. -/
theorem bitHighDecodesABit : Obligations.BitHighDecodesABit :=
  ⟨rfl, fun _ => next_runControl clockEdge_ctlBitHigh⟩

end Sys2Proof.Proofs

/-! ## Proofs: the result (spec/44_result.md)

First the bytes of the frame as quotients of the 40-bit number (R33), and the checksum and the tenths in those terms; then
the result ports with a finished read and during a read. Then the statements. -/

namespace Sys2Proof.Machine

section
variable (f : FrameWord)

/-! ### The bytes as quotients (R15, R33) -/

/-- A byte of the frame is a quotient of the 40-bit number. -/
theorem extractByte_toNat (start : Nat) : (f.extractLsb' start 8).toNat = f.toNat / 2 ^ start % 256 := by
  rw [BitVec.extractLsb'_toNat, Nat.shiftRight_eq_div_pow]

/-- Nothing stands above the first byte, so its quotient needs no reduction. -/
theorem byte0_toNat : (byte0 f).toNat = f.toNat / 2 ^ 32 := by
  have hf : f.toNat < 2 ^ 40 := f.isLt
  rw [byte0, extractByte_toNat]
  omega

theorem byte1_toNat : (byte1 f).toNat = f.toNat / 2 ^ 24 % 256 := extractByte_toNat f 24

theorem byte2_toNat : (byte2 f).toNat = f.toNat / 2 ^ 16 % 256 := extractByte_toNat f 16

theorem byte3_toNat : (byte3 f).toNat = f.toNat / 2 ^ 8 % 256 := extractByte_toNat f 8

theorem byte4_toNat : (byte4 f).toNat = f.toNat % 256 := by
  rw [byte4, extractByte_toNat, Nat.pow_zero, Nat.div_one]

/-! ### The checksum and the tenths (R111, R112) -/

/-- The sum of the first four bytes, as quotients of the 40-bit number (R33). -/
def quotientSum (n : Nat) : Nat := n / 2 ^ 32 + n / 2 ^ 24 % 256 + n / 2 ^ 16 % 256 + n / 2 ^ 8 % 256

theorem checksum_toNat : (checksum f).toNat = quotientSum f.toNat % 256 := by
  rw [checksum, BitVec.toNat_ofNat, byte0_toNat, byte1_toNat, byte2_toNat, byte3_toNat, quotientSum]

/-- The checksum of a frame holds when the quotients say so. -/
theorem checksum_eq_byte4_iff : checksum f = byte4 f ↔ quotientSum f.toNat % 256 = f.toNat % 256 := by
  rw [← BitVec.toNat_inj, checksum_toNat, byte4_toNat]

/-- Ten times a byte plus a byte is at most 2805. -/
theorem tenths_le (whole fraction : Byte) : 10 * whole.toNat + fraction.toNat ≤ 2805 := by
  have hwhole : whole.toNat < 256 := whole.isLt
  have hfraction : fraction.toNat < 256 := fraction.isLt
  omega

/-- Twelve bits hold the tenths without truncation. -/
theorem tenths_toNat (whole fraction : Byte) : (tenths whole fraction).toNat = 10 * whole.toNat + fraction.toNat := by
  have hle : 10 * whole.toNat + fraction.toNat ≤ 2805 := tenths_le whole fraction
  rw [tenths, BitVec.toNat_ofNat, Nat.mod_eq_of_lt (by omega)]

theorem tenths_toNat_le (whole fraction : Byte) : (tenths whole fraction).toNat ≤ 2805 := by
  rw [tenths_toNat]
  exact tenths_le whole fraction

end

section
variable {p : Params} {x : Inputs} {r : Regs}

/-! ### `DONE` at the clock edge (R110) -/

/-- `DONE` in the order of R110: the frame that is rejected first, the verdict on quotients. -/
theorem clockEdge_ctlDone_quotients :
    clockEdge p x (ctlDone p r x) r =
      if p.checksumEn = true ∧ quotientSum r.frame.toNat % 256 ≠ r.frame.toNat % 256 then
        { r with st := Code.idle, status := Code.checksumMismatch, frame := 0#40, ticks := countTicks p x r.ticks }
      else { r with st := Code.idle, status := Code.ok, ticks := countTicks p x r.ticks } := by
  have hverdict : (p.checksumEn = false ∨ checksum r.frame = byte4 r.frame) ↔
      ¬ (p.checksumEn = true ∧ quotientSum r.frame.toNat % 256 ≠ r.frame.toNat % 256) := by
    rw [checksum_eq_byte4_iff, not_and_not_right, ← Bool.not_eq_true, imp_iff_not_or]
  rw [clockEdge_ctlDone, if_congr hverdict rfl rfl, ite_not]

/-! ### The result ports (R113) -/

/-- With a finished read the result ports show the frame and its conversions. -/
theorem outputs_of_status_ok (h : r.status = Code.ok) :
    (outputs r).valid = true ∧ (outputs r).raw = r.frame ∧ (outputs r).humX10 = humX10 r.frame
      ∧ (outputs r).tempX10 = tempX10 r.frame := by
  have hvalid : valid r = true := (valid_iff r).mpr h
  simp [outputs, hvalid]

/-- Where the invariant holds a busy cycle has no result to show (R29 (f)). -/
theorem Inv.status_of_busy (h : Inv p r) (hbusy : (outputs r).busy = true) : r.status = Code.none :=
  h.noStatusWhileBusy ((busy_iff r).mp hbusy)

end

end Sys2Proof.Machine

/-! ### The statements -/

namespace Sys2Proof.Proofs

open Sys2Proof.Machine

/-- Settles O27: `DONE` at the clock edge, its verdict read on quotients. -/
theorem doneChecksTheFrame : Obligations.DoneChecksTheFrame :=
  ⟨rfl, fun _ => next_runControl clockEdge_ctlDone_quotients⟩

/-- Settles O42: the tenths of two bytes are exact, and the bytes are quotients. -/
theorem readingIsExactTenths : Obligations.ReadingIsExactTenths := by
  intro f
  refine ⟨?_, ?_, tenths_toNat_le _ _, tenths_toNat_le _ _⟩
  · rw [humX10, tenths_toNat, byte0_toNat, byte1_toNat]
  · rw [tempX10, tenths_toNat, byte2_toNat, byte3_toNat]

/-- Settles O41: the data ports by `STATUS`; a busy cycle of a reachable state has `STATUS` = `NONE`. -/
theorem dataPortsShowAFinishedReadOnly : Obligations.DataPortsShowAFinishedReadOnly := by
  refine ⟨fun r => ⟨rfl, rfl, rfl, busy_iff r⟩, fun r hok => ?_, fun r hne => ?_, fun p r hinv hbusy => ?_⟩
  · obtain ⟨hvalid, hraw, hhum, htemp⟩ := outputs_of_status_ok hok
    exact ⟨hvalid, hraw, hhum, htemp, rfl⟩
  · obtain ⟨hvalid, hraw, hhum, htemp⟩ := outputs_of_status_ne_ok hne
    exact ⟨hvalid, hraw, hhum, htemp, rfl⟩
  · have hstatus : r.status = Code.none := hinv.status_of_busy hbusy
    obtain ⟨hvalid, hraw, hhum, htemp⟩ := outputs_of_status_ne_ok (r := r) (by simp [hstatus])
    exact ⟨hvalid, hstatus, hraw, hhum, htemp⟩

end Sys2Proof.Proofs

/-! ## Proofs: the errors (spec/60_exceptions.md)

First the line in the timed waits of a reachable state. Then the statement. -/

namespace Sys2Proof.Machine

/-- In a timed wait the line is released already, since the invariant has it driven in `START_LOW` only (R29 (c)). -/
theorem Inv.oe_eq_false_of_isTimedWait {p : Params} {r : Regs} (h : Inv p r) (hwait : isTimedWait r.st = true) :
    r.oe = false := by
  obtain ⟨_, hpulse, _, _⟩ := ne_of_isTimedWait hwait
  exact h.oe_eq_false hpulse

end Sys2Proof.Machine

/-! ### The statement -/

namespace Sys2Proof.Proofs

open Sys2Proof.Machine

/-- Settles O28: the clock edge of a timed wait at its timeout is the table's `Fail`, with the wait's own error. -/
theorem failEntersIdle : Obligations.FailEntersIdle := by
  refine ⟨fun s hw hr hwait ht => ⟨_, step_edge hw hr, ?_⟩, fun _ hinv hwait => hinv.oe_eq_false_of_isTimedWait hwait⟩
  rw [nextCycle_regs, edge_timeout hwait ht, tableFail]

end Sys2Proof.Proofs

/-! ## Proofs: the code tables (spec/30_encoding.md)

A code word is the code of an operation, or it is illegal and rejected: from this and the round trip of
`Laws.CodeRoundTrip` follow all three parts of `DecodeAndEncodeAgree`. Then the statements. -/

namespace Sys2Proof.Machine

/-! ### The two kinds of code word (R45) -/

/-- The family `CodeRoundTrip` for all 22 instructions. -/
theorem codeRoundTrip : ∀ i : Instr, Laws.CodeRoundTrip.Statement i
  | .idle => Laws.CodeRoundTrip.idle
  | .startLow => Laws.CodeRoundTrip.startLow
  | .startSettle => Laws.CodeRoundTrip.startSettle
  | .awaitAckLow => Laws.CodeRoundTrip.awaitAckLow
  | .awaitAckHigh => Laws.CodeRoundTrip.awaitAckHigh
  | .awaitDataStart => Laws.CodeRoundTrip.awaitDataStart
  | .bitLow => Laws.CodeRoundTrip.bitLow
  | .bitHigh => Laws.CodeRoundTrip.bitHigh
  | .done => Laws.CodeRoundTrip.done
  | .hold => Laws.CodeRoundTrip.hold
  | .driveLow => Laws.CodeRoundTrip.driveLow
  | .releaseHigh => Laws.CodeRoundTrip.releaseHigh
  | .tmrCount => Laws.CodeRoundTrip.tmrCount
  | .tmrReset => Laws.CodeRoundTrip.tmrReset
  | .readLevel => Laws.CodeRoundTrip.readLevel
  | .tmrRead => Laws.CodeRoundTrip.tmrRead
  | .readSensor => Laws.CodeRoundTrip.readSensor
  | .resultNone => Laws.CodeRoundTrip.resultNone
  | .resultOk => Laws.CodeRoundTrip.resultOk
  | .resultNoResponse => Laws.CodeRoundTrip.resultNoResponse
  | .resultFrameTimeout => Laws.CodeRoundTrip.resultFrameTimeout
  | .resultChecksumMismatch => Laws.CodeRoundTrip.resultChecksumMismatch

/-- The code of an operation is legal and decodes to it. -/
theorem wf_and_decode_of_encode {i : Instr} {w : CodeWord} (h : encode i = some w) : w.wf = true ∧ decode w = .ok i :=
  (codeRoundTrip i).2 w h

theorem lineCode_cases (c : LineCode) : c = Code.hold ∨ c = Code.driveLow ∨ c = Code.releaseHigh ∨ c = 3#2 := by
  revert c; decide

theorem timerCode_cases (c : TimerCode) : c = Code.tmrCount ∨ c = Code.tmrReset := by
  revert c; decide

theorem resultCode_cases (c : ResultCode) :
    c = Code.none ∨ c = Code.ok ∨ c = Code.noResponse ∨ c = Code.frameTimeout ∨ c = Code.checksumMismatch
      ∨ 5 ≤ c.toNat := by
  revert c; decide

/-- A code word is the code of an operation, or it is illegal and the decoder rejects it (R45, R50, R51). -/
theorem codeWord_encoded_or_rejected (w : CodeWord) :
    (∃ i, encode i = some w) ∨ (w.wf = false ∧ ∃ e, decode w = .error e) := by
  cases w with
  | state c =>
    rcases stateCode_cases c with rfl | rfl | rfl | rfl | rfl | rfl | rfl | rfl | rfl | h
    · exact .inl ⟨.idle, rfl⟩
    · exact .inl ⟨.startLow, rfl⟩
    · exact .inl ⟨.startSettle, rfl⟩
    · exact .inl ⟨.awaitAckLow, rfl⟩
    · exact .inl ⟨.awaitAckHigh, rfl⟩
    · exact .inl ⟨.awaitDataStart, rfl⟩
    · exact .inl ⟨.bitLow, rfl⟩
    · exact .inl ⟨.bitHigh, rfl⟩
    · exact .inl ⟨.done, rfl⟩
    · exact .inr ⟨decide_eq_false (Nat.not_le.mpr h), _, decodeState_illegal h⟩
  | line c =>
    rcases lineCode_cases c with rfl | rfl | rfl | rfl
    · exact .inl ⟨.hold, rfl⟩
    · exact .inl ⟨.driveLow, rfl⟩
    · exact .inl ⟨.releaseHigh, rfl⟩
    · exact .inr ⟨rfl, _, rfl⟩
  | timer c =>
    rcases timerCode_cases c with rfl | rfl
    · exact .inl ⟨.tmrCount, rfl⟩
    · exact .inl ⟨.tmrReset, rfl⟩
  | result c =>
    rcases resultCode_cases c with rfl | rfl | rfl | rfl | rfl | h
    · exact .inl ⟨.resultNone, rfl⟩
    · exact .inl ⟨.resultOk, rfl⟩
    · exact .inl ⟨.resultNoResponse, rfl⟩
    · exact .inl ⟨.resultFrameTimeout, rfl⟩
    · exact .inl ⟨.resultChecksumMismatch, rfl⟩
    · exact .inr ⟨decide_eq_false (Nat.not_le.mpr h), _, decodeResult_reserved h⟩

theorem decode_eq_ok_iff (w : CodeWord) (i : Instr) : decode w = .ok i ↔ encode i = some w := by
  refine ⟨fun h => ?_, fun h => (wf_and_decode_of_encode h).2⟩
  rcases codeWord_encoded_or_rejected w with ⟨j, hj⟩ | ⟨_, e, he⟩
  · have hij : i = j := Except.ok.inj (h.symm.trans (wf_and_decode_of_encode hj).2)
    exact hij ▸ hj
  · rw [he] at h
    cases h

theorem wf_iff_decodes (w : CodeWord) : w.wf = true ↔ ∃ i, decode w = .ok i := by
  rcases codeWord_encoded_or_rejected w with ⟨i, hi⟩ | ⟨hwf, e, he⟩
  · obtain ⟨hwf, hdecode⟩ := wf_and_decode_of_encode hi
    exact iff_of_true hwf ⟨i, hdecode⟩
  · simp [hwf, he]

theorem hasCode_iff_encodes (i : Instr) : i.hasCode = true ↔ ∃ w, encode i = some w := by
  rw [(codeRoundTrip i).1, Option.isSome_iff_exists]

end Sys2Proof.Machine

/-! ### The statements -/

namespace Sys2Proof.Proofs

open Sys2Proof.Machine

/-- Settles O1: every code word is the code of an operation or rejected, and codes decode to their operations. -/
theorem decodeAndEncodeAgree : Obligations.DecodeAndEncodeAgree :=
  ⟨decode_eq_ok_iff, wf_iff_decodes, hasCode_iff_encodes⟩

/-- Settles O2: eight closed words, each read by the decoder. -/
theorem tableWordsDecode : Obligations.TableWordsDecode := by
  unfold Obligations.TableWordsDecode
  decide

end Sys2Proof.Proofs

/-! ## Proofs: one cycle by the state it starts in (spec/10_state.md, spec/42_handshake.md)

The clock edge of each state as one equation, for the proofs about runs and about what a cycle reads. -/

namespace Sys2Proof.Machine

section
variable {p : Params} {x : Inputs} {r : Regs}

/-- `IDLE` without a request (R82). -/
theorem edge_idle (hst : r.st = Code.idle) (hx : x.start = false) : edge p r x = tableCount p x r := by
  rw [edge, hst]
  exact clockEdge_ctlIdle.trans (if_neg (by simp [hx]))

/-- `START_LOW` (R83). -/
theorem edge_startLow (hst : r.st = Code.startLow) :
    edge p r x =
      if p.tStart ≤ r.ticks then { r with st := Code.startSettle, oe := false, ticks := 0 } else tableCount p x r := by
  rw [edge, hst]
  exact clockEdge_ctlStartLow

/-- `START_SETTLE` (R84). -/
theorem edge_startSettle (hst : r.st = Code.startSettle) :
    edge p r x =
      if p.tSettle ≤ r.ticks then { r with st := Code.awaitAckLow, ticks := 0 } else tableCount p x r := by
  rw [edge, hst]
  exact clockEdge_ctlStartSettle

/-- A timed wait that sees its level (R81). -/
theorem edge_level (hst : isTimedWait r.st = true) (ht : r.ticks < p.tTimeout) (hx : x.lineIn = awaitedLevel r.st) :
    edge p r x = clockEdge p x (waitExit p r) r := by
  rw [edge, stateControl_timedWait hst, timedWait_level ht hx]

/-- A timed wait that goes on (R81). -/
theorem edge_repeat (hst : isTimedWait r.st = true) (ht : r.ticks < p.tTimeout) (hx : x.lineIn ≠ awaitedLevel r.st) :
    edge p r x = tableCount p x r := by
  rw [edge, stateControl_timedWait hst, timedWait_repeat ht hx]
  rfl

/-- `DONE` (R110). -/
theorem edge_done (hst : r.st = Code.done) :
    edge p r x =
      if p.checksumEn = false ∨ checksum r.frame = byte4 r.frame then
        { r with st := Code.idle, status := Code.ok, ticks := countTicks p x r.ticks }
      else
        { r with st := Code.idle, status := Code.checksumMismatch, frame := 0#40,
                 ticks := countTicks p x r.ticks } := by
  rw [edge, hst]
  exact clockEdge_ctlDone

theorem edge_done_st (hst : r.st = Code.done) : (edge p r x).st = Code.idle := by
  rw [edge_done hst]
  split <;> rfl

/-- The state after a cycle is the one its control decides. -/
theorem edge_st : (edge p r x).st = (stateControl r.st p r x).st := clockEdge_st _ _ _ _

/-- A wait that sees its level goes to another state (R90). -/
theorem waitSuccessor_ne {c : StateCode} (h : isTimedWait c = true) (n : BitCount) : waitSuccessor c n ≠ c := by
  rcases (isTimedWait_iff c).mp h with rfl | rfl | rfl | rfl | rfl
  case inr.inr.inr.inr =>
    by_cases hlast : n = 39#6 <;> simp [waitSuccessor, hlast]
  all_goals simp [waitSuccessor]

end

end Sys2Proof.Machine

/-! ## Proofs: the windows of the waits and delays (spec/41_timer_watchdog.md, R74 (c))

Each state but `IDLE` has one constant that ends it; a cycle that finds `TICKS` at that constant leaves the state, so a
cycle that stays counts to it at most. Then the statements about one step's invariants. -/

namespace Sys2Proof.Machine

/-- The value of `TICKS` that ends the state: the length of a delay, the timeout of a wait, and at once in `DONE`
(R83, R84, R81, R110). -/
def windowEnd (p : Params) (c : StateCode) : Nat :=
  if c = Code.startLow then p.tStart
  else if c = Code.startSettle then p.tSettle
  else if isTimedWait c then p.tTimeout
  else 0

@[simp] theorem windowEnd_startLow (p : Params) : windowEnd p Code.startLow = p.tStart := rfl
@[simp] theorem windowEnd_startSettle (p : Params) : windowEnd p Code.startSettle = p.tSettle := rfl

theorem windowEnd_timedWait {p : Params} {c : StateCode} (h : isTimedWait c = true) : windowEnd p c = p.tTimeout := by
  obtain ⟨_, hpulse, hsettle, _⟩ := ne_of_isTimedWait h
  simp [windowEnd, hpulse, hsettle, h]

/-- The states of the window clauses of R74 (c): the two delays and the five timed waits. -/
def hasWindow (c : StateCode) : Prop := c = Code.startLow ∨ c = Code.startSettle ∨ isTimedWait c = true

theorem not_hasWindow_idle : ¬ hasWindow Code.idle := by
  unfold hasWindow
  decide

theorem not_hasWindow_done : ¬ hasWindow Code.done := by
  unfold hasWindow
  decide

section
variable {p : Params} {x : Inputs} {r : Regs} {c : Ctl}

/-- R74 (c) with its three windows as one. -/
theorem ticksInWindow_iff :
    TicksInWindow p r ↔ r.ticks < 2 ^ p.tw ∧ (hasWindow r.st → r.ticks ≤ windowEnd p r.st) := by
  constructor
  · rintro ⟨hfits, hpulse, hsettle, hwait⟩
    refine ⟨hfits, ?_⟩
    rintro (hst | hst | hst)
    · simpa [hst] using hpulse hst
    · simpa [hst] using hsettle hst
    · exact windowEnd_timedWait hst ▸ hwait hst
  · rintro ⟨hfits, hwindow⟩
    refine ⟨hfits, fun hst => ?_, fun hst => ?_, fun hst => ?_⟩
    · simpa [hst] using hwindow (.inl hst)
    · simpa [hst] using hwindow (.inr (.inl hst))
    · exact windowEnd_timedWait (p := p) hst ▸ hwindow (.inr (.inr hst))

/-- Outside `IDLE`, a cycle that finds `TICKS` at the end of the window leaves the state. -/
theorem edge_leaves_at_windowEnd (hst : r.st ≠ Code.idle) (ht : windowEnd p r.st ≤ r.ticks) :
    (edge p r x).st ≠ r.st := by
  rcases stateCode_kinds r.st with h | h | h | h | h | h
  · exact absurd h hst
  · rw [h, windowEnd_startLow] at ht
    simp [edge_startLow h, ht, h]
  · rw [h, windowEnd_startSettle] at ht
    simp [edge_startSettle h, ht, h]
  · rw [edge_timeout h (windowEnd_timedWait h ▸ ht)]
    exact hst.symm
  · rw [edge_done_st h]
    exact hst.symm
  · rw [edge_illegal h]
    exact hst.symm

/-- So a cycle that stays in a busy state found `TICKS` below the end of the window. -/
theorem ticks_lt_windowEnd_of_stays (hst : r.st ≠ Code.idle) (hstay : (edge p r x).st = r.st) :
    r.ticks < windowEnd p r.st :=
  Nat.lt_of_not_le fun ht => edge_leaves_at_windowEnd hst ht hstay

/-- A decision to another state with a window clears the counter: only the 40th bit goes on without a timer reset, and
that to `DONE` (R97). -/
theorem Decision.tcmd_of_enters (h : Decision p r x c) (hwindow : hasWindow c.st) (hne : c.st ≠ r.st) :
    c.tcmd = Code.tmrReset := by
  cases h with
  | keep => exact absurd rfl hne
  | accept | release | settled => rfl
  | level hst =>
    rw [waitExit_tcmd, if_neg]
    rintro ⟨hbit, hlast⟩
    rw [waitExit_st, hbit, hlast] at hwindow
    exact not_hasWindow_done hwindow
  | timeout | reject | take | recover => exact absurd hwindow not_hasWindow_idle

/-- R74 (c) for one cycle with `rst` = 0: one that stays counts to the end of the window at most, one that enters another
window clears the counter. -/
theorem ticksInWindow_edge (h : TicksInWindow p r) : TicksInWindow p (edge p r x) := by
  obtain ⟨hfits, _⟩ := ticksInWindow_iff.mp h
  have hticks : (edge p r x).ticks = _ := clockEdge_ticks p x (stateControl r.st p r x) r
  have hcount : (edge p r x).ticks = 0 ∨ (edge p r x).ticks = countTicks p x r.ticks := by
    rw [hticks]
    split
    · exact .inl rfl
    · exact .inr rfl
  refine ticksInWindow_iff.mpr ⟨?_, fun hwindow => ?_⟩
  · rcases hcount with heq | heq <;> rw [heq]
    · exact Nat.two_pow_pos _
    · exact countTicks_lt hfits
  · by_cases hstay : (edge p r x).st = r.st
    · have hbusy : r.st ≠ Code.idle := fun hidle => not_hasWindow_idle (hidle ▸ hstay ▸ hwindow)
      have hlt : r.ticks < windowEnd p r.st := ticks_lt_windowEnd_of_stays hbusy hstay
      rw [hstay]
      rcases hcount with heq | heq <;> rw [heq]
      · exact Nat.zero_le _
      · exact countTicks_le hlt
    · rw [edge_st] at hstay hwindow
      rw [hticks, if_pos ((stateControl_decision p r x).tcmd_of_enters hwindow hstay)]
      exact Nat.zero_le _

theorem ticksInWindow_reset : TicksInWindow p Regs.reset :=
  ticksInWindow_iff.mpr ⟨Nat.two_pow_pos _, fun hwindow => absurd hwindow not_hasWindow_idle⟩

end

/-- R74 (c): every step keeps the windows; a reset cycle enters `IDLE`. -/
theorem ticksInWindow_step {s t : State} (h : TicksInWindow s.cfg s.regs) (hs : step s = .next t) :
    TicksInWindow t.cfg t.regs := by
  obtain ⟨_, ⟨_, rfl⟩ | ⟨_, rfl⟩⟩ := step_next hs
  · simpa using ticksInWindow_reset (p := s.cfg)
  · simpa [edge] using ticksInWindow_edge (x := s.env.now) h

end Sys2Proof.Machine

/-! ### The statements -/

namespace Sys2Proof.Proofs

open Sys2Proof.Machine

/-- Settles O34: a reset cycle establishes the invariant, the clock edge of each state operation keeps it. -/
theorem everyStepKeepsTheInvariant : Obligations.EveryStepKeepsTheInvariant :=
  fun _ _ => inv_step

/-- Settles O36: a cycle that stays in a window found `TICKS` below its end, one that enters a window clears `TICKS`. -/
theorem everyStepKeepsTicksInWindow : Obligations.EveryStepKeepsTicksInWindow :=
  fun _ _ => ticksInWindow_step

/-- Settles O33: the reset registers in the reference configuration. -/
theorem resetSatisfiesTheInvariants : Obligations.ResetSatisfiesTheInvariants :=
  ⟨inv_reset _, ticksInWindow_reset, by decide⟩

end Sys2Proof.Proofs

/-! ## Proofs: every step and every instruction answers (spec/20_memory.md, spec/30_encoding.md)

First that a step and a run in a described configuration go on. Then the statements about runs without end, the feed of
inputs, and the instructions whose meaning is one equation. -/

namespace Sys2Proof.Machine

/-- In a described configuration every cycle has a next state, with the configuration as it was. -/
theorem step_answers {s : State} (hw : s.cfg.wf = true) : ∃ t, step s = .next t ∧ t.cfg = s.cfg := by
  cases hr : s.env.now.rst with
  | true => exact ⟨_, step_reset hw hr, by simp⟩
  | false => exact ⟨_, step_run hw hr, by simp⟩

theorem runCycles_answers (n : Nat) {s : State} (hw : s.cfg.wf = true) :
    ∃ t, runCycles n s = .next t ∧ t.cfg = s.cfg := by
  induction n generalizing s with
  | zero => exact ⟨s, rfl, rfl⟩
  | succ n ih =>
    obtain ⟨u, hu, hcfg⟩ := step_answers hw
    obtain ⟨t, ht, hcfg'⟩ := ih (s := u) (hcfg ▸ hw)
    exact ⟨t, by simpa [runCycles, hu] using ht, hcfg'.trans hcfg⟩

end Sys2Proof.Machine

/-! ### The statements -/

namespace Sys2Proof.Proofs

open Sys2Proof.Machine

/-- Settles O9: every cycle of a described configuration has a next state with that configuration. -/
theorem noRunEverStops : Obligations.NoRunEverStops :=
  fun n _ hw => runCycles_answers n hw

/-- Settles O5: the two cases of `nextCycle`. -/
theorem inputsPassAtTheEndOfACycle : Obligations.InputsPassAtTheEndOfACycle := by
  refine ⟨fun s => ⟨nextCycle_regs s, nextCycle_cfg s, nextCycle_cycle s⟩, fun s x xs h => ?_, fun s h => ?_⟩
  · rw [nextCycle_cons h]
    exact ⟨rfl, rfl⟩
  · rw [nextCycle_nil h]
    exact ⟨rfl, rfl⟩

/-- Settles O8: the step's first branch is the constraints of R7. -/
theorem undescribedConfigurationIsRefused : Obligations.UndescribedConfigurationIsRefused :=
  fun _ => step_refused

/-- Settles O10: each instruction answers a state with other registers, or for the request with other inputs. -/
theorem everyInstructionCompletes : Obligations.EveryInstructionCompletes := by
  intro i s
  cases i with
  | readSensor => exact ⟨_, rfl, rfl, fun hne => absurd rfl hne⟩
  | idle | startLow | startSettle | awaitAckLow | awaitAckHigh | awaitDataStart | bitLow | bitHigh | done
  | hold | driveLow | releaseHigh | tmrCount | tmrReset | readLevel | tmrRead
  | resultNone | resultOk | resultNoResponse | resultFrameTimeout | resultChecksumMismatch =>
    exact ⟨_, rfl, rfl, fun _ => rfl⟩

/-- Settles O16: each answers its own state; the counter after `TMR_RESET` is the one it wrote. -/
theorem holdAndReadsChangeNothing : Obligations.HoldAndReadsChangeNothing := by
  refine ⟨rfl, fun _ => rfl, fun _ => ⟨rfl, rfl⟩, fun _ => ⟨rfl, rfl⟩, fun s t h => ?_⟩
  cases h
  rfl

/-- Settles O18: TMR's two commands, each one equation. -/
theorem timerCommandsOnTheirOwn : Obligations.TimerCommandsOnTheirOwn :=
  ⟨rfl, rfl, fun _ => rfl, fun _ => rfl⟩

/-- Settles O19: the state after the request is `raiseStart s`, from which `IDLE` accepts. -/
theorem readSensorStartsARead : Obligations.ReadSensorStartsARead := by
  refine ⟨fun _ => rfl, fun s u hw hr hst hu => ?_⟩
  have hraise : u = raiseStart s := (Host.Outcome.next.inj hu).symm
  subst hraise
  refine ⟨_, step_edge hw hr, ?_⟩
  rw [nextCycle_regs]
  exact edge_accept hst (raiseStart_start s)

/-- Settles O22: `START_LOW` at the clock edge. -/
theorem startLowHoldsTheLine : Obligations.StartLowHoldsTheLine :=
  ⟨rfl, fun _ => next_runControl clockEdge_ctlStartLow⟩

/-- Settles O29: `Fail` without the counter's part, with each of the two errors. -/
theorem timeoutCodesAsOperations : Obligations.TimeoutCodesAsOperations :=
  ⟨rfl, rfl, fun _ => rfl, fun _ => rfl⟩

/-- Settles O30: the clearing, the successful end, and the entry of `ChecksumMismatch`. -/
theorem otherResultCodes : Obligations.OtherResultCodes :=
  ⟨rfl, rfl, rfl, fun _ => rfl, fun _ => rfl, fun _ => rfl⟩

end Sys2Proof.Proofs

/-! ## Proofs: the line commands (spec/40_line_driver.md) and the priority of events (spec/60_exceptions.md)

First which decisions carry a line command and in which events those are taken; then the Line Driver at the clock edge. Then
the statements. -/

namespace Sys2Proof.Machine

section
variable {p : Params} {x : Inputs} {r : Regs} {c : Ctl}

/-! ### Who issues a line command (R56, R60, R61) -/

/-- A decision to drive the line is the acceptance of a read. -/
theorem Decision.accepts_of_driveLow (h : Decision p r x c) (hc : c.lcmd = Code.driveLow) :
    r.st = Code.idle ∧ x.start = true := by
  cases h with
  | accept hst hx => exact ⟨hst, hx⟩
  | level => simp at hc
  | keep | release | settled | timeout | reject | take | recover =>
    simp [moveOn, fail, checksumError, success, recovery] at hc

/-- A decision to release the line is the end of the start pulse, `Fail`, or the recovery. -/
theorem Decision.event_of_releaseHigh (h : Decision p r x c) (hc : c.lcmd = Code.releaseHigh) :
    (r.st = Code.startLow ∧ p.tStart ≤ r.ticks) ∨ (isTimedWait r.st = true ∧ p.tTimeout ≤ r.ticks)
      ∨ 9 ≤ r.st.toNat := by
  cases h with
  | release hst ht => exact .inl ⟨hst, ht⟩
  | timeout hst ht => exact .inr (.inl ⟨hst, ht⟩)
  | recover hst => exact .inr (.inr hst)
  | level => simp at hc
  | keep | accept | settled | reject | take => simp [moveOn, checksumError, success] at hc

theorem stateControl_driveLow_iff :
    (stateControl r.st p r x).lcmd = Code.driveLow ↔ r.st = Code.idle ∧ x.start = true := by
  refine ⟨(stateControl_decision p r x).accepts_of_driveLow, ?_⟩
  rintro ⟨hst, hx⟩
  rw [hst]
  simp [stateControl, ctlIdle, hx]

theorem stateControl_releaseHigh_iff :
    (stateControl r.st p r x).lcmd = Code.releaseHigh ↔
      (r.st = Code.startLow ∧ p.tStart ≤ r.ticks) ∨ (isTimedWait r.st = true ∧ p.tTimeout ≤ r.ticks)
        ∨ 9 ≤ r.st.toNat := by
  refine ⟨(stateControl_decision p r x).event_of_releaseHigh, ?_⟩
  rintro (⟨hst, ht⟩ | ⟨hst, ht⟩ | hst)
  · rw [hst]
    simp [stateControl, ctlStartLow, ht]
  · rw [stateControl_timedWait hst, timedWait_timeout ht]
    rfl
  · rw [stateControl_illegal hst]
    rfl

/-- No reset cycle issues a line command but `HOLD`; in every other cycle the command is the one decided (log 21). -/
theorem issuedLine_eq_iff {s : State} {l : LineCode} (hl : l ≠ Code.hold) :
    issuedLine s = l ↔ s.env.now.rst = false ∧ (stateControl s.regs.st s.cfg s.regs s.env.now).lcmd = l := by
  unfold issuedLine
  cases s.env.now.rst with
  | true => simpa using hl.symm
  | false => simp

theorem issuedLine_run {s : State} (hr : s.env.now.rst = false) :
    issuedLine s = (stateControl s.regs.st s.cfg s.regs s.env.now).lcmd :=
  congrArg Prod.fst (issued_commands hr)

/-- The Line Driver at the clock edge of a cycle without reset: the issued command decides (R60, R61, R63). -/
theorem edge_line_of_issuedLine {s : State} (hr : s.env.now.rst = false) :
    ((edge s.cfg s.regs s.env.now).oe, (edge s.cfg s.regs s.env.now).out) =
      if issuedLine s = Code.driveLow then (true, false)
      else if issuedLine s = Code.releaseHigh then (false, s.regs.out)
      else (s.regs.oe, s.regs.out) := by
  rw [edge, clockEdge_oe, clockEdge_out, issuedLine_run hr]
  split_ifs <;> rfl

end

end Sys2Proof.Machine

/-! ### The statements -/

namespace Sys2Proof.Proofs

open Sys2Proof.Machine

/-- Settles O13: a step with `rst` = 0 is one clock edge, where the Line Driver and TMR take the issued commands. -/
theorem commandsTakeEffectAtTheEdge : Obligations.CommandsTakeEffectAtTheEdge := by
  intro s hw hr
  refine ⟨_, step_edge hw hr, ?_⟩
  rw [nextCycle_regs]
  exact ⟨edge_line_of_issuedLine hr, edge_ticks_of_issuedTimer hr⟩

/-- Settles O14: the command writes constants, and only the acceptance of a read issues it. -/
theorem driveLowPullsThePinLow : Obligations.DriveLowPullsThePinLow := by
  refine ⟨rfl, fun _ => rfl, fun s t h => ?_, fun s => ?_⟩
  · cases h
    rfl
  · rw [issuedLine_eq_iff (by decide), stateControl_driveLow_iff]

/-- Settles O15: the command writes a constant, and the end of the pulse, `Fail` and the recovery issue it. -/
theorem releaseHighFloatsThePin : Obligations.ReleaseHighFloatsThePin := by
  refine ⟨rfl, fun _ => rfl, fun s t h => ?_, fun s => ?_⟩
  · cases h
    rfl
  · rw [issuedLine_eq_iff (by decide), stateControl_releaseHigh_iff]

/-- Settles O32: the reset cycle, and the three things a timed wait can do at the clock edge. -/
theorem priorityWithinACycle : Obligations.PriorityWithinACycle := by
  intro s hw hwait
  cases hr : s.env.now.rst with
  | true => exact ⟨_, step_reset hw hr, by simp⟩
  | false =>
    refine ⟨_, step_edge hw hr, by simp, fun _ ht => ?_, fun _ ht hx => ?_, fun _ ht hx => ?_⟩ <;>
      rw [nextCycle_regs]
    · rw [edge_timeout hwait ht]
      exact ⟨rfl, rfl⟩
    · rw [edge_level hwait ht hx, clockEdge_st, clockEdge_status, waitExit_st, waitExit_status]
      exact ⟨waitSuccessor_ne hwait _, rfl⟩
    · rw [edge_repeat hwait ht hx]
      rfl

end Sys2Proof.Proofs

/-! ## Proofs: what a cycle does not read (spec/10_state.md)

Two controls are compared: at two levels of the line, and with two values of `STATUS`. Then the pin. Then the statements. -/

namespace Sys2Proof.Machine

/-- The sampling states of R13 are the timed waits. -/
theorem phase_eq_sample_iff (c : StateCode) : phase c = some .sample ↔ isTimedWait c = true := by
  revert c; decide

/-- `START_LOW` is the one state of the phase "pull" (R13). -/
theorem phase_eq_pull_iff (c : StateCode) : phase c = some .pull ↔ c = Code.startLow := by
  revert c; decide

section
variable {p : Params} {x : Inputs} {r : Regs}

/-- No operation but a timed wait looks at the line (R26). -/
theorem stateControl_ignores_line {c : StateCode} (hc : ¬ isTimedWait c = true) (b : Bool) :
    stateControl c p r { x with lineIn := b } = stateControl c p r x := by
  rcases stateCode_kinds c with h | h | h | h | h | h
  case inr.inr.inr.inl => exact absurd h hc
  case inr.inr.inr.inr.inr => rw [stateControl_illegal h]
  all_goals
    subst h
    rfl

theorem edge_ignores_line (hst : ¬ isTimedWait r.st = true) (b : Bool) :
    edge p r { x with lineIn := b } = edge p r x := by
  rw [edge, stateControl_ignores_line hst]
  rfl

/-- A timed wait does not look at `STATUS` if its exit does not. -/
theorem timedWait_ignores_status {a a' : Ctl} (level : Bool) (e v : ResultCode)
    (ha : ∃ w, a' = { a with status := w }) :
    ∃ w, timedWait level e a' p { r with status := v } x = { timedWait level e a p r x with status := w } := by
  rcases timedWait_cases level e a p r x with ⟨ht, hw⟩ | ⟨ht, hx, hw⟩ | ⟨ht, hx, hw⟩ <;> rw [hw]
  · exact ⟨_, timedWait_timeout (by exact ht)⟩
  · rwa [timedWait_level (by exact ht) hx]
  · exact ⟨_, timedWait_repeat (by exact ht) hx⟩

/-- What a cycle decides does not depend on `STATUS`, but for the `STATUS` it keeps (R20). -/
theorem stateControl_ignores_status (c : StateCode) (v : ResultCode) :
    ∃ w, stateControl c p { r with status := v } x = { stateControl c p r x with status := w } := by
  rcases stateCode_cases c with rfl | rfl | rfl | rfl | rfl | rfl | rfl | rfl | rfl | h
  · change ∃ w, ctlIdle p { r with status := v } x = { ctlIdle p r x with status := w }
    unfold ctlIdle
    split <;> exact ⟨_, rfl⟩
  · change ∃ w, ctlStartLow p { r with status := v } x = { ctlStartLow p r x with status := w }
    unfold ctlStartLow startOver
    split <;> exact ⟨_, rfl⟩
  · change ∃ w, ctlStartSettle p { r with status := v } x = { ctlStartSettle p r x with status := w }
    unfold ctlStartSettle settleOver
    split <;> exact ⟨_, rfl⟩
  · exact timedWait_ignores_status _ _ _ ⟨_, rfl⟩
  · exact timedWait_ignores_status _ _ _ ⟨_, rfl⟩
  · exact timedWait_ignores_status _ _ _ ⟨_, rfl⟩
  · exact timedWait_ignores_status _ _ _ ⟨_, rfl⟩
  · exact timedWait_ignores_status _ _ _ ⟨_, rfl⟩
  · change ∃ w, ctlDone p { r with status := v } x = { ctlDone p r x with status := w }
    unfold ctlDone
    split <;> exact ⟨_, rfl⟩
  · rw [stateControl_illegal h]
    exact ⟨_, rfl⟩

/-- The clock edge of decisions that differ in `STATUS` only, on registers that differ in `STATUS` only. -/
theorem clockEdge_ignores_status (c : Ctl) (u v : ResultCode) :
    clockEdge p x { c with status := u } { r with status := v } = { clockEdge p x c r with status := u } := by
  rcases lineCode_cases c.lcmd with h | h | h | h <;> simp [clockEdge, h, engine, timer]

/-- The registers after a cycle do not depend on `STATUS`, but for `STATUS` (R20). -/
theorem edge_ignores_status (v : ResultCode) :
    ∃ w, edge p { r with status := v } x = { edge p r x with status := w } := by
  obtain ⟨w, hw⟩ := stateControl_ignores_status (p := p) (x := x) (r := r) r.st v
  exact ⟨w, (congrArg (clockEdge p x · _) hw).trans (clockEdge_ignores_status _ w v)⟩

end

/-- The passing of the inputs and a change of registers do not touch each other. -/
theorem nextCycle_set_regs (s : State) (r : Regs) : nextCycle { s with regs := r } = { nextCycle s with regs := r } := by
  cases h : s.env.coming with
  | nil => rw [nextCycle_nil h, nextCycle_nil (by exact h)]
  | cons y ys => rw [nextCycle_cons h, nextCycle_cons (by exact h)]

end Sys2Proof.Machine

/-! ### The statements -/

namespace Sys2Proof.Proofs

open Sys2Proof.Machine

/-- Settles O38: a configuration refused is refused, a reset is a reset, and no other cycle outside the timed waits looks
at the line. -/
theorem lineIsReadInSamplingStatesOnly : Obligations.LineIsReadInSamplingStatesOnly := by
  intro s b hphase
  have hst : ¬ isTimedWait s.regs.st = true := fun h => hphase ((phase_eq_sample_iff _).mpr h)
  cases hw : s.cfg.wf with
  | false => rw [step_refused hw, step_refused (by exact hw)]
  | true =>
    cases hr : s.env.now.rst with
    | true =>
      rw [step_reset hw hr, step_reset (by exact hw) (by exact hr)]
      exact congrArg _ (nextCycle_forgets_now (resetCycle s) _)
    | false =>
      rw [step_edge hw hr, step_edge (by exact hw) (by exact hr), edge_ignores_line hst]
      exact congrArg _ (nextCycle_forgets_now { s with regs := edge s.cfg s.regs s.env.now } _)

/-- Settles O40: a reset cycle writes `STATUS` itself, every other cycle decides the same whatever `STATUS` holds. -/
theorem statusInfluencesNothing : Obligations.StatusInfluencesNothing := by
  intro s v hw
  cases hr : s.env.now.rst with
  | true => exact ⟨_, _, step_reset hw hr, step_reset hw hr, rfl⟩
  | false =>
    obtain ⟨w, hedge⟩ := edge_ignores_status (p := s.cfg) (x := s.env.now) (r := s.regs) v
    have hstep : step s = .next { nextCycle s with regs := edge s.cfg s.regs s.env.now } := by
      rw [step_edge hw hr, nextCycle_set_regs]
    have hstep' : step { s with regs := { s.regs with status := v } } =
        .next { nextCycle s with regs := { edge s.cfg s.regs s.env.now with status := w } } := by
      rw [step_edge (by exact hw) (by exact hr), hedge]
      exact congrArg _ (nextCycle_set_regs s _)
    exact ⟨_, _, hstep, hstep', rfl⟩

/-- Settles O43: by the invariant `OUT` is 0 and the line is driven in `START_LOW` only, which samples nothing. -/
theorem pinIsNeverDrivenHigh : Obligations.PinIsNeverDrivenHigh := by
  intro p r sensor hinv
  have hreleased : r.oe = false → pinLevel r sensor = sensor := fun hoe => by simp [pinLevel, hoe]
  refine ⟨fun hoe => by simp [pinLevel, hoe, hinv.outLow], hreleased, fun hphase => ?_, ?_⟩
  · exact hreleased (hinv.oe_eq_false_of_isTimedWait ((phase_eq_sample_iff _).mp hphase))
  · rw [phase_eq_pull_iff]
    exact hinv.drivenOnlyInStartLow

end Sys2Proof.Proofs

/-! ## Proofs: runs over a stimulus (spec/41_timer_watchdog.md, spec/42_handshake.md)

A run over a stimulus without reset is a fold of `edge` over the inputs (`run_fed`, `run_take`). Two facts about such folds
serve all statements: cycles that only count add up, and cycles that shorten a bound reach an end within it. Then the
statements about `IDLE`, the start pulse and one timed wait. -/

namespace Sys2Proof.Machine

/-- What a stimulus of ticks says of a part of it (R152). -/
theorem ticking.tickEn {l : List Inputs} (h : ticking l) {x : Inputs} (hx : x ∈ l) : x.tickEn = true := (h x hx).2

theorem ticking.rst {l : List Inputs} (h : ticking l) {x : Inputs} (hx : x ∈ l) : x.rst = false := (h x hx).1

/-- `run_fed` for statements that look at the registers only: the run over `l`, whatever comes after it. -/
theorem run_over {s : State} (l rest : List Inputs) (hw : s.cfg.wf = true) (hl : ∀ x ∈ l, x.rst = false) :
    ∃ t, runCycles l.length (s.fed (l ++ rest)) = .next t ∧ t.cfg = s.cfg
      ∧ t.regs = l.foldl (edge s.cfg) s.regs := by
  obtain ⟨t, hrun, hcfg, hregs⟩ := run_fed l rest hw hl
  exact ⟨_, hrun, (fed_cfg t rest).trans hcfg, (fed_regs t rest).trans hregs⟩

/-- The first `n` cycles of a stimulus that has no reset in them. -/
theorem run_first {s : State} {l : List Inputs} {n : Nat} (hn : n ≤ l.length) (hw : s.cfg.wf = true)
    (hl : ∀ x ∈ l.take n, x.rst = false) :
    ∃ t, runCycles n (s.fed l) = .next t ∧ t.cfg = s.cfg ∧ t.regs = (l.take n).foldl (edge s.cfg) s.regs := by
  have h := run_over (s := s) (l.take n) (l.drop n) hw hl
  rwa [List.take_append_drop, List.length_take, Nat.min_eq_left hn] at h

/-- The first `k` of `n` equal cycles. -/
theorem run_replicate {s : State} {x : Inputs} {k n : Nat} (rest : List Inputs) (hk : k ≤ n) (hw : s.cfg.wf = true)
    (hx : x.rst = false) :
    ∃ t, runCycles k (s.fed (List.replicate n x ++ rest)) = .next t
      ∧ t.regs = (List.replicate k x).foldl (edge s.cfg) s.regs := by
  have htake : (List.replicate n x ++ rest).take k = List.replicate k x := by
    rw [List.take_append_of_le_length (by simpa using hk), List.take_replicate, Nat.min_eq_left hk]
  have hrst : ∀ y ∈ (List.replicate n x ++ rest).take k, y.rst = false := fun y hy => by
    rw [htake] at hy
    rw [List.eq_of_mem_replicate hy, hx]
  have hlen : k ≤ (List.replicate n x ++ rest).length := by
    rw [List.length_append, List.length_replicate]
    omega
  obtain ⟨t, hrun, _, hregs⟩ := run_first hlen hw hrst
  exact ⟨t, hrun, htake ▸ hregs⟩

section
variable {p : Params} {r : Regs} {l : List Inputs}

/-! ### Cycles that only count -/

/-- With a tick in every cycle, cycles that write nothing up to a window's end `m` add their number to `TICKS`. -/
theorem foldl_edge_counts {m : Nat} (hm : m < 2 ^ p.tw) (htick : ∀ x ∈ l, x.tickEn = true)
    (hstay : ∀ x ∈ l, ∀ n < m, edge p { r with ticks := n } x = tableCount p x { r with ticks := n })
    (hlen : r.ticks + l.length ≤ m) : l.foldl (edge p) r = { r with ticks := r.ticks + l.length } := by
  induction l generalizing r with
  | nil => rfl
  | cons x xs ih =>
    rw [List.length_cons] at hlen ⊢
    have hlt : r.ticks < m := by omega
    have hx : edge p r x = { r with ticks := r.ticks + 1 } := by
      rw [hstay x (by simp) r.ticks hlt, tableCount, countTicks_tick (htick x (by simp)) hlt hm]
    have hxs := ih (r := { r with ticks := r.ticks + 1 }) (fun y hy => htick y (by simp [hy]))
      (fun y hy => hstay y (by simp [hy])) (by change r.ticks + 1 + xs.length ≤ m; omega)
    rw [List.foldl_cons, hx, hxs, Nat.add_assoc, Nat.add_comm 1]

/-- Without a request `IDLE` only counts, whatever the ticks (R78). -/
theorem foldl_edge_idle (hst : r.st = Code.idle) (hl : ∀ x ∈ l, x.start = false) :
    ∃ n, l.foldl (edge p) r = { r with ticks := n } := by
  induction l generalizing r with
  | nil => exact ⟨r.ticks, rfl⟩
  | cons x xs ih =>
    rw [List.foldl_cons, edge_idle hst (hl x (by simp))]
    exact ih (r := tableCount p x r) hst fun y hy => hl y (by simp [hy])

/-! ### Cycles that shorten a bound -/

/-- If every cycle from `P` either ends in `Q` or stays in `P` with a smaller bound, then `Q` is reached within the bound,
and up to there `P` holds. -/
theorem foldl_reaches {P Q : Regs → Prop} {bound : Regs → Nat} (hpos : ∀ r, P r → 0 < bound r)
    (hstep : ∀ x ∈ l, ∀ r, P r → Q (edge p r x) ∨ (P (edge p r x) ∧ bound (edge p r x) < bound r))
    (hr : P r) (hlen : bound r ≤ l.length) :
    ∃ n, 0 < n ∧ n ≤ bound r ∧ Q ((l.take n).foldl (edge p) r) ∧ ∀ m < n, P ((l.take m).foldl (edge p) r) := by
  induction l generalizing r with
  | nil => exact absurd (hpos r hr) (Nat.not_lt.mpr hlen)
  | cons x xs ih =>
    have hone : ∀ m < 1, P (((x :: xs).take m).foldl (edge p) r) := fun m hm => by
      obtain rfl : m = 0 := by omega
      exact hr
    rcases hstep x (by simp) r hr with hq | ⟨hp, hlt⟩
    · exact ⟨1, Nat.one_pos, hpos r hr, hq, hone⟩
    · rw [List.length_cons] at hlen
      obtain ⟨n, hn, hle, hq, hbefore⟩ := ih (fun y hy => hstep y (by simp [hy])) hp (by omega)
      refine ⟨n + 1, n.succ_pos, by omega, hq, fun m hm => ?_⟩
      cases m with
      | zero => exact hr
      | succ m => exact hbefore m (by omega)

/-! ### One timed wait (R79) -/

/-- A timed wait whose line never shows its level counts up to the timeout. -/
theorem foldl_edge_stuck (hm : p.tTimeout < 2 ^ p.tw) (hst : isTimedWait r.st = true)
    (htick : ∀ x ∈ l, x.tickEn = true) (hline : ∀ x ∈ l, x.lineIn ≠ awaitedLevel r.st)
    (hlen : r.ticks + l.length ≤ p.tTimeout) : l.foldl (edge p) r = { r with ticks := r.ticks + l.length } :=
  foldl_edge_counts hm htick (fun x hx _ hn => edge_repeat hst hn (hline x hx)) hlen

/-- The start pulse counts up to `T_START` (R91). -/
theorem foldl_edge_startLow (hm : p.tStart < 2 ^ p.tw) (hst : r.st = Code.startLow)
    (htick : ∀ x ∈ l, x.tickEn = true) (hlen : r.ticks + l.length ≤ p.tStart) :
    l.foldl (edge p) r = { r with ticks := r.ticks + l.length } :=
  foldl_edge_counts hm htick (fun _ _ n hn => (edge_startLow (by exact hst)).trans (if_neg (Nat.not_le.mpr hn))) hlen

/-- `k` cycles of a stuck line after the wait's first: `TICKS` shows `k`. -/
theorem foldl_edge_stuckLine {k : Nat} (hm : p.tTimeout < 2 ^ p.tw) (hst : isTimedWait r.st = true) (hzero : r.ticks = 0)
    (hk : k ≤ p.tTimeout) :
    (List.replicate k (tickAt (!awaitedLevel r.st))).foldl (edge p) r = { r with ticks := k } := by
  rw [foldl_edge_stuck hm hst (fun x hx => by rw [List.eq_of_mem_replicate hx]; rfl)
    (fun x hx => by rw [List.eq_of_mem_replicate hx]; simp [tickAt]) (by simpa [hzero] using hk)]
  simp [hzero]

/-- An accepted read and `k` more cycles: the line is driven, `TICKS` shows `k` (R91). -/
theorem foldl_edge_pulse {x : Inputs} (hm : p.tStart < 2 ^ p.tw) (hst : r.st = Code.idle) (hx : x.start = true)
    (htick : ∀ y ∈ l, y.tickEn = true) (hlen : l.length ≤ p.tStart) :
    (x :: l).foldl (edge p) r =
      { st := Code.startLow, frame := 0#40, bitcnt := 0#6, oe := true, out := false, status := Code.none,
        ticks := l.length } := by
  rw [List.foldl_cons, edge_accept hst hx, foldl_edge_startLow hm rfl htick (by simpa using hlen), Nat.zero_add]

end

/-- In a timed wait and within its window: what a wait in code `c` keeps until it is left. -/
def waitsIn (p : Params) (c : StateCode) (r : Regs) : Prop := r.st = c ∧ r.ticks ≤ p.tTimeout

/-- With a tick a timed wait is left or comes one nearer to its timeout. -/
theorem waitsIn_edge {p : Params} {c : StateCode} {r : Regs} {x : Inputs} (hm : p.tTimeout < 2 ^ p.tw)
    (hc : isTimedWait c = true) (hx : x.tickEn = true) (hr : waitsIn p c r) :
    (edge p r x).st ≠ c
      ∨ (waitsIn p c (edge p r x) ∧ p.tTimeout + 1 - (edge p r x).ticks < p.tTimeout + 1 - r.ticks) := by
  obtain ⟨rfl, hle⟩ := hr
  rcases Nat.lt_or_ge r.ticks p.tTimeout with ht | ht
  · by_cases hlevel : x.lineIn = awaitedLevel r.st
    · left
      rw [edge_level hc ht hlevel, clockEdge_st, waitExit_st]
      exact waitSuccessor_ne hc _
    · right
      rw [edge_repeat hc ht hlevel, tableCount, countTicks_tick hx ht hm]
      exact ⟨⟨rfl, ht⟩, by simp only; omega⟩
  · left
    rw [edge_timeout hc ht]
    exact (ne_of_isTimedWait hc).1.symm

end Sys2Proof.Machine

/-! ### The statements -/

namespace Sys2Proof.Proofs

open Sys2Proof.Machine

/-- Settles O51: the fold of quiet cycles over `IDLE` moves the counter only, and no port but `tmr_value` shows it. -/
theorem idleHoldsTheResult : Obligations.IdleHoldsTheResult := by
  intro s l n hw hst hquiet hn
  have hfirst : ∀ x ∈ l.take n, x.rst = false ∧ x.start = false := fun x hx => hquiet x (List.mem_of_mem_take hx)
  obtain ⟨t, hrun, _, hregs⟩ := run_first hn hw fun x hx => (hfirst x hx).1
  obtain ⟨k, hk⟩ := foldl_edge_idle (p := s.cfg) hst fun x hx => (hfirst x hx).2
  refine ⟨t, hrun, ?_, ?_⟩ <;> rw [hregs, hk]
  rfl

/-- Settles O50: the accepting cycle, then the pulse counting up to `T_START`, then the cycle that releases the line. -/
theorem startPulseHasItsLength : Obligations.StartPulseHasItsLength := by
  intro s x l hw hst hx htick hlen
  obtain ⟨_, _, _, hm, _⟩ := (Params.wf_iff _).mp hw
  have hrun : ∀ n ≤ l.length + 1, ∃ t, runCycles n (s.fed (x :: l)) = .next t ∧ t.cfg = s.cfg
      ∧ t.regs = ((x :: l).take n).foldl (edge s.cfg) s.regs :=
    fun n hn => run_first hn hw fun y hy => htick.rst (List.mem_of_mem_take hy)
  have hpulse : ∀ k ≤ s.cfg.tStart, ((x :: l).take (k + 1)).foldl (edge s.cfg) s.regs =
      { st := Code.startLow, frame := 0#40, bitcnt := 0#6, oe := true, out := false, status := Code.none,
        ticks := k } := fun k hk => by
    have hlength : (l.take k).length = k := List.length_take_of_le (by omega)
    rw [List.take_succ_cons, foldl_edge_pulse hm hst hx
      (fun y hy => htick.tickEn (List.mem_cons_of_mem _ (List.mem_of_mem_take hy))) (hlength.trans_le hk), hlength]
  refine ⟨fun k hk => ?_, ?_⟩
  · obtain ⟨t, ht, _, hregs⟩ := hrun (k + 1) (by omega)
    exact ⟨t, ht, hregs.trans (hpulse k hk)⟩
  · obtain ⟨t, ht, _, hregs⟩ := hrun (s.cfg.tStart + 2) (by omega)
    refine ⟨t, ht, ?_⟩
    rw [hregs, List.take_succ_eq_append_getElem (by rw [List.length_cons]; omega), List.foldl_append, hpulse _ le_rfl]
    exact (edge_startLow rfl).trans (if_pos le_rfl)

/-- Settles O48: each cycle leaves the wait or brings it nearer to the timeout. -/
theorem everyTimedWaitIsBounded : Obligations.EveryTimedWaitIsBounded := by
  intro s l hw hwait hle htick hlen
  obtain ⟨_, _, hm, _⟩ := (Params.wf_iff _).mp hw
  obtain ⟨n, hpos, hn, hleft, _⟩ := foldl_reaches (p := s.cfg) (r := s.regs) (l := l)
    (P := waitsIn s.cfg s.regs.st) (Q := fun r => r.st ≠ s.regs.st) (bound := fun r => s.cfg.tTimeout + 1 - r.ticks)
    (fun r hr => Nat.sub_pos_of_lt (Nat.lt_succ_of_le hr.2))
    (fun x hx _ hr => waitsIn_edge hm hwait (htick.tickEn hx) hr) ⟨rfl, hle⟩ (by omega)
  obtain ⟨t, hrun, _, hregs⟩ :=
    run_first (s := s) (l := l) (n := n) (by omega) hw fun x hx => htick.rst (List.mem_of_mem_take hx)
  exact ⟨n, t, hpos, hn, hrun, hregs ▸ hleft⟩

/-- Settles O47: the stuck line lets the wait count up to `T_TIMEOUT`, where the next cycle fails. -/
theorem stuckLineTimesOutExactly : Obligations.StuckLineTimesOutExactly := by
  intro s rest hw hwait hzero stuck
  obtain ⟨_, _, hm, _⟩ := (Params.wf_iff _).mp hw
  refine ⟨fun k hk => ?_, ?_⟩
  · obtain ⟨t, hrun, hregs⟩ :=
      run_replicate (x := tickAt (!awaitedLevel s.regs.st)) rest (hk.trans (Nat.le_succ _)) hw rfl
    exact ⟨t, hrun, hregs.trans (foldl_edge_stuckLine hm hwait hzero hk)⟩
  · obtain ⟨t, hrun, hregs⟩ := run_replicate (x := tickAt (!awaitedLevel s.regs.st)) rest le_rfl hw rfl
    refine ⟨t, hrun, ?_⟩
    rw [hregs, List.replicate_succ', List.foldl_append, foldl_edge_stuckLine hm hwait hzero le_rfl]
    exact edge_timeout hwait le_rfl

end Sys2Proof.Proofs

/-! ## Proofs: pulses on the wire (spec/43_bit_decode_frame.md)

First the two edges that `BIT_LOW` and `BIT_HIGH` wait for, then one bit as a fold of `edge` over its wave, then a list of
bits. Then the end of a read and what the ports show of it, and the statements. -/

namespace Sys2Proof.Machine

section
variable {p : Params} {x : Inputs} {r : Regs}

/-! ### One bit (R95 to R101) -/

/-- `BIT_LOW` sees the rising edge (R96). -/
theorem edge_bitLow_rises (hst : r.st = Code.bitLow) (ht : r.ticks < p.tTimeout) (hx : x.lineIn = true) :
    edge p r x = { r with st := Code.bitHigh, ticks := 0 } := by
  rw [edge, hst]
  exact (clockEdge_timedWait_moveOn true Code.frameTimeout Code.bitHigh).trans
    ((if_neg (Nat.not_le.mpr ht)).trans (if_pos hx))

/-- `BIT_HIGH` sees the falling edge: the bit is classified, shifted in and counted (R97). -/
theorem edge_bitHigh_falls (hst : r.st = Code.bitHigh) (ht : r.ticks < p.tTimeout) (hx : x.lineIn = false) :
    edge p r x =
      { r with
        frame := shiftIn r.frame (decide (p.tBit < r.ticks))
        bitcnt := r.bitcnt + 1#6
        st := if r.bitcnt = 39#6 then Code.done else Code.bitLow
        ticks := if r.bitcnt = 39#6 then countTicks p x r.ticks else 0 } := by
  rw [edge, hst]
  refine (clockEdge_timedWait false Code.frameTimeout (bitDecoded p r)).trans
    (((if_neg (Nat.not_le.mpr ht)).trans (if_pos hx)).trans ?_)
  rw [clockEdge_bitDecoded]
  by_cases hlast : r.bitcnt = 39#6 <;> simp [hlast]

theorem bitWave_length (low high : Nat) : (bitWave low high).length = low + high + 1 := by
  simp [bitWave, Nat.add_assoc]

theorem bitWave_rst {low high : Nat} (hx : x ∈ bitWave low high) : x.rst = false := by
  simp only [bitWave, List.mem_append, List.mem_replicate, List.mem_singleton] at hx
  rcases hx with (⟨_, rfl⟩ | ⟨_, rfl⟩) | rfl <;> rfl

theorem pulseFits_iff (b : Nat × Nat) :
    pulseFits p b = true ↔ b.1 < p.tTimeout ∧ 1 ≤ b.2 ∧ b.2 ≤ p.tTimeout := by
  simp [pulseFits, and_assoc]

/-- A level that a wait does not await, for `n` cycles from `TICKS` = 0: the counter shows `n`. -/
theorem foldl_edge_level {level : Bool} {n : Nat} (hm : p.tTimeout < 2 ^ p.tw) (hst : isTimedWait r.st = true)
    (hlevel : level = !awaitedLevel r.st) (hzero : r.ticks = 0) (hn : n ≤ p.tTimeout) :
    (List.replicate n (tickAt level)).foldl (edge p) r = { r with ticks := n } :=
  hlevel ▸ foldl_edge_stuckLine hm hst hzero hn

/-- One bit from the first cycle of `BIT_LOW`: the low pulse is waited out, the rising edge clears the counter, the rest of
the high pulse is measured, the falling edge decodes it (R101). -/
theorem foldl_edge_bitWave {low high : Nat} (hm : p.tTimeout < 2 ^ p.tw) (hfits : pulseFits p (low, high) = true)
    (hst : r.st = Code.bitLow) (hzero : r.ticks = 0) :
    (bitWave low high).foldl (edge p) r =
      { r with
        frame := shiftIn r.frame (bitOfPulse p high)
        bitcnt := r.bitcnt + 1#6
        st := if r.bitcnt = 39#6 then Code.done else Code.bitLow
        ticks := if r.bitcnt = 39#6 then high else 0 } := by
  obtain ⟨hlow, hpos, hhigh⟩ := (pulseFits_iff _).mp hfits
  obtain ⟨d, rfl⟩ : ∃ d, high = d + 1 := ⟨high - 1, (Nat.sub_add_cancel hpos).symm⟩
  have hd : d < p.tTimeout := hhigh
  have hwaited : (List.replicate low (tickAt false)).foldl (edge p) r = { r with ticks := low } :=
    foldl_edge_level hm (by rw [hst]; rfl) (by rw [hst]; rfl) hzero hlow.le
  have hmeasured : (List.replicate (d + 1) (tickAt true)).foldl (edge p) { r with ticks := low } =
      { r with st := Code.bitHigh, ticks := d } := by
    rw [List.replicate_succ, List.foldl_cons, edge_bitLow_rises (by exact hst) hlow rfl]
    exact foldl_edge_level hm rfl rfl rfl hd.le
  rw [bitWave, List.foldl_append, List.foldl_append, hwaited, hmeasured, List.foldl_cons, List.foldl_nil,
    edge_bitHigh_falls rfl hd rfl]
  simp only [countTicks_tick (x := tickAt false) rfl hd hm, bitOfPulse, Nat.add_sub_cancel]

/-! ### A list of bits (R99, R100) -/

theorem frameWave_rst {bits : List (Nat × Nat)} (hx : x ∈ frameWave bits) : x.rst = false := by
  induction bits with
  | nil => simp [frameWave] at hx
  | cons b rest ih =>
    rcases List.mem_append.mp hx with h | h
    · exact bitWave_rst h
    · exact ih h

/-- Bits from the first cycle of `BIT_LOW`: they are shifted into the frame and counted, and the 40th of the read ends in
`DONE`. -/
theorem foldl_edge_frameWave {bits : List (Nat × Nat)} (hm : p.tTimeout < 2 ^ p.tw)
    (hfits : ∀ b ∈ bits, pulseFits p b = true) (hst : r.st = Code.bitLow) (hzero : r.ticks = 0)
    (hlt : r.bitcnt.toNat < 40) (hlen : r.bitcnt.toNat + bits.length ≤ 40) :
    ∃ n, (frameWave bits).foldl (edge p) r =
      { r with
        frame := shiftAll r.frame (bits.map fun b => bitOfPulse p b.2)
        bitcnt := BitVec.ofNat 6 (r.bitcnt.toNat + bits.length)
        st := if r.bitcnt.toNat + bits.length = 40 then Code.done else Code.bitLow
        ticks := n } := by
  induction bits generalizing r with
  | nil =>
    refine ⟨r.ticks, ?_⟩
    simp [frameWave, shiftAll, hlt.ne, ← hst]
  | cons b rest ih =>
    rw [frameWave, List.foldl_append, foldl_edge_bitWave hm (hfits b (by simp)) hst hzero]
    rw [List.length_cons] at hlen ⊢
    have hsucc : (r.bitcnt + 1#6).toNat = r.bitcnt.toNat + 1 := bitcnt_succ_toNat hlt
    by_cases hlast : r.bitcnt = 39#6
    · have hnum : r.bitcnt.toNat = 39 := by simp [hlast]
      obtain rfl : rest = [] := List.length_eq_zero_iff.mp (by omega)
      exact ⟨b.2, by simp [frameWave, shiftAll, hlast]⟩
    · have hne : r.bitcnt.toNat ≠ 39 := fun heq => hlast (BitVec.eq_of_toNat_eq heq)
      obtain ⟨n, hn⟩ := ih
        (r := { r with frame := shiftIn r.frame (bitOfPulse p b.2), bitcnt := r.bitcnt + 1#6, st := Code.bitLow,
                       ticks := 0 })
        (fun c hc => hfits c (by simp [hc])) rfl rfl (by rw [hsucc]; omega) (by rw [hsucc]; omega)
      refine ⟨n, ?_⟩
      simp only [hlast, if_false]
      rw [hn]
      simp only [hsucc, Nat.add_assoc, Nat.add_comm 1]
      rfl

/-! ### The end of a read, and what the ports show of it (R110, R113, R124) -/

/-- `DONE` takes the frame: the ports show it (R110, R112). -/
theorem outputs_edge_done_taken (hst : r.st = Code.done)
    (hsum : p.checksumEn = false ∨ checksum r.frame = byte4 r.frame) :
    (outputs (edge p r x)).status = Code.ok ∧ (outputs (edge p r x)).raw = r.frame
      ∧ (outputs (edge p r x)).humX10 = humX10 r.frame ∧ (outputs (edge p r x)).tempX10 = tempX10 r.frame := by
  rw [edge_done hst, if_pos hsum]
  obtain ⟨_, hraw, hhum, htemp⟩ :=
    outputs_of_status_ok (r := { r with st := Code.idle, status := Code.ok, ticks := countTicks p x r.ticks }) rfl
  exact ⟨rfl, hraw, hhum, htemp⟩

/-- `DONE` rejects the frame: nothing of it is left, and nothing is shown (R125). -/
theorem outputs_edge_done_rejected (hst : r.st = Code.done)
    (hsum : ¬ (p.checksumEn = false ∨ checksum r.frame = byte4 r.frame)) :
    (outputs (edge p r x)).status = Code.checksumMismatch ∧ (outputs (edge p r x)).valid = false
      ∧ (outputs (edge p r x)).raw = 0#40 ∧ (edge p r x).frame = 0#40 := by
  rw [edge_done hst, if_neg hsum]
  exact ⟨rfl, rfl, rfl, rfl⟩

theorem waitError_ne_ok (c : StateCode) : waitError c ≠ Code.ok := by
  unfold waitError
  split <;> decide

/-- A timeout shows its error and no data (R122, R123). -/
theorem outputs_edge_timeout (hst : isTimedWait r.st = true) (ht : p.tTimeout ≤ r.ticks) :
    (outputs (edge p r x)).status = waitError r.st ∧ (outputs (edge p r x)).raw = 0#40 := by
  rw [edge_timeout hst ht]
  obtain ⟨_, hraw, _⟩ := outputs_of_status_ne_ok (r := tableFail (waitError r.st) p x r) (waitError_ne_ok r.st)
  exact ⟨rfl, hraw⟩

/-- An accepted read shows that it is in progress, and nothing of the one before it (R82, R113). -/
theorem outputs_edge_accept (hst : r.st = Code.idle) (hx : x.start = true) :
    (edge p r x).st = Code.startLow ∧ (outputs (edge p r x)).busy = true
      ∧ (outputs (edge p r x)).status = Code.none ∧ (outputs (edge p r x)).valid = false
      ∧ (edge p r x).frame = 0#40 := by
  rw [edge_accept hst hx]
  exact ⟨rfl, rfl, rfl, rfl, rfl⟩

end

end Sys2Proof.Machine

/-! ### The statements -/

namespace Sys2Proof.Proofs

open Sys2Proof.Machine

/-- Settles O45: one bit's wave folded over `BIT_LOW`. -/
theorem oneBitDecodesByPulseLength : Obligations.OneBitDecodesByPulseLength := by
  intro s low high rest hw hfits hst hzero
  obtain ⟨_, _, hm, _⟩ := (Params.wf_iff _).mp hw
  obtain ⟨t, hrun, hcfg, hregs⟩ := run_over (s := s) (bitWave low high) rest hw fun x hx => bitWave_rst hx
  rw [bitWave_length] at hrun
  exact ⟨t, hrun, hcfg, hregs.trans (foldl_edge_bitWave hm hfits hst hzero)⟩

/-- Settles O46: forty bits' waves folded over `BIT_LOW` end in `DONE`, whose cycle takes the frame or rejects it. -/
theorem fortyPulsesGiveTheReading : Obligations.FortyPulsesGiveTheReading := by
  intro s bits x rest hw hlen hfits hst hzero hcount hx f
  obtain ⟨_, _, hm, _⟩ := (Params.wf_iff _).mp hw
  obtain ⟨n, hn⟩ := foldl_edge_frameWave (p := s.cfg) (r := s.regs) hm hfits hst hzero (by simp [hcount])
    (by simp [hcount, hlen])
  have hframe : (frameWave bits).foldl (edge s.cfg) s.regs =
      { s.regs with frame := f, bitcnt := 40#6, st := Code.done, ticks := n } := by
    simpa [hcount, hlen] using hn
  obtain ⟨t, ht, _, htregs⟩ := run_over (s := s) (frameWave bits) (x :: rest) hw fun y hy => frameWave_rst hy
  have hrst : ∀ y ∈ frameWave bits ++ [x], y.rst = false := fun y hy => by
    rcases List.mem_append.mp hy with h | h
    · exact frameWave_rst h
    · rw [List.mem_singleton.mp h, hx]
  obtain ⟨u, hu, _, huregs⟩ := run_over (s := s) (frameWave bits ++ [x]) rest hw hrst
  rw [List.append_assoc, List.singleton_append, List.length_append, List.length_singleton] at hu
  rw [List.foldl_append, hframe, List.foldl_cons, List.foldl_nil] at huregs
  rw [hframe] at htregs
  refine ⟨⟨t, ht, ?_⟩, u, hu, ?_⟩
  · rw [htregs]
    exact ⟨rfl, rfl, rfl, rfl⟩
  · rw [huregs]
    refine ⟨edge_done_st rfl, fun hsum => outputs_edge_done_taken rfl hsum, fun hen hsum => ?_⟩
    exact outputs_edge_done_rejected rfl (not_or.mpr ⟨by simp [hen], hsum⟩)

/-- Settles O52: the cycle that ends the read enters `IDLE` with the result, the next accepts another. -/
theorem heldStartShowsTheResultOnce : Obligations.HeldStartShowsTheResultOnce := by
  intro s x y rest hw hx hy _ hstart hends
  have hidle : (edge s.cfg s.regs x).st = Code.idle := by
    rcases hends with hst | ⟨hst, ht⟩
    · exact edge_done_st hst
    · rw [edge_timeout hst ht]
      rfl
  obtain ⟨t, ht, _, htregs⟩ := run_over (s := s) [x] (y :: rest) hw (by simp [hx])
  obtain ⟨u, hu, _, huregs⟩ := run_over (s := s) [x, y] rest hw (by simp [hx, hy])
  refine ⟨⟨t, ht, ?_⟩, u, hu, ?_⟩
  · rw [htregs]
    refine ⟨hidle, fun hst => ?_, fun hwait => ?_⟩
    · by_cases hsum : s.cfg.checksumEn = false ∨ checksum s.regs.frame = byte4 s.regs.frame
      · obtain ⟨hstatus, hraw, _⟩ := outputs_edge_done_taken (x := x) hst hsum
        exact .inl ⟨hstatus, hraw⟩
      · obtain ⟨hstatus, _, hraw, _⟩ := outputs_edge_done_rejected (x := x) hst hsum
        exact .inr ⟨hstatus, hraw⟩
    · rcases hends with hst | ⟨_, ht⟩
      · exact absurd hst (ne_of_isTimedWait hwait).2.2.2
      · exact outputs_edge_timeout hwait ht
  · rw [huregs]
    exact outputs_edge_accept hidle hstart

end Sys2Proof.Proofs

/-! ## Proofs: every read ends (spec/42_handshake.md, R80, R154)

A bound on the cycles that a read still takes: what is left of the current window, and what all later ones can take. Every
cycle with a tick ends the read or lowers the bound. Then the statement. -/

namespace Sys2Proof.Machine

/-! ### The bound -/

/-- How many timed waits a read can still enter after the one in `c`: three of the handshake, then two for each bit. -/
def waitsAfter (c : StateCode) (bitcnt : BitCount) : Nat :=
  if c = Code.awaitAckLow then 82
  else if c = Code.awaitAckHigh then 81
  else if c = Code.awaitDataStart then 80
  else if c = Code.bitLow then 79 - 2 * bitcnt.toNat
  else 78 - 2 * bitcnt.toNat

/-- The cycles after the current window: one that leaves it, and those of the delays, waits and `DONE` that can follow. -/
def cyclesAfterWindow (p : Params) (r : Regs) : Nat :=
  if r.st = Code.startLow then p.tSettle + 83 * p.tTimeout + 3
  else if r.st = Code.startSettle then 83 * p.tTimeout + 2
  else if isTimedWait r.st then waitsAfter r.st r.bitcnt * p.tTimeout + 1
  else 1

/-- A bound on the cycles until the read in progress ends, with a tick in every cycle. -/
def cyclesLeft (p : Params) (r : Regs) : Nat := windowEnd p r.st - r.ticks + cyclesAfterWindow p r

/-- A read that has ended: in `IDLE`, the line released, one of the four results (R135). -/
def readEnded (r : Regs) : Prop :=
  r.st = Code.idle ∧ r.oe = false
    ∧ (r.status = Code.ok ∨ r.status = Code.noResponse ∨ r.status = Code.frameTimeout
        ∨ r.status = Code.checksumMismatch)

/-- A read in progress, in a state that meets the invariant (R29). -/
structure Reading (p : Params) (r : Regs) : Prop where
  busy : r.st ≠ Code.idle
  inv : Inv p r

section
variable {p : Params} {x : Inputs} {r : Regs}

theorem cyclesLeft_startLow (hst : r.st = Code.startLow) :
    cyclesLeft p r = p.tStart - r.ticks + (p.tSettle + 83 * p.tTimeout + 3) := by
  simp [cyclesLeft, cyclesAfterWindow, hst]

theorem cyclesLeft_startSettle (hst : r.st = Code.startSettle) :
    cyclesLeft p r = p.tSettle - r.ticks + (83 * p.tTimeout + 2) := by
  simp [cyclesLeft, cyclesAfterWindow, hst]

theorem cyclesLeft_timedWait (hst : isTimedWait r.st = true) :
    cyclesLeft p r = p.tTimeout - r.ticks + (waitsAfter r.st r.bitcnt * p.tTimeout + 1) := by
  obtain ⟨_, hpulse, hsettle, _⟩ := ne_of_isTimedWait hst
  simp [cyclesLeft, cyclesAfterWindow, windowEnd_timedWait hst, hpulse, hsettle, hst]

theorem cyclesLeft_done (hst : r.st = Code.done) : cyclesLeft p r = 1 := by
  simp [cyclesLeft, cyclesAfterWindow, windowEnd, isTimedWait, hst]

theorem cyclesLeft_pos : 0 < cyclesLeft p r := by
  unfold cyclesLeft cyclesAfterWindow
  split_ifs <;> omega

/-! ### The bound goes down -/

/-- A cycle that counts inside the window. -/
theorem cyclesLeft_tableCount (htick : x.tickEn = true) (hlt : r.ticks < windowEnd p r.st)
    (hm : windowEnd p r.st < 2 ^ p.tw) : cyclesLeft p (tableCount p x r) < cyclesLeft p r := by
  rw [tableCount, countTicks_tick htick hlt hm]
  change windowEnd p r.st - (r.ticks + 1) + cyclesAfterWindow p r < windowEnd p r.st - r.ticks + cyclesAfterWindow p r
  omega

/-- The waits of the handshake and `BIT_LOW` go on to the next wait of the read. -/
theorem waitsAfter_waitSuccessor (h : Inv p r) (hst : isTimedWait r.st = true) (hne : r.st ≠ Code.bitHigh) :
    waitsAfter (waitSuccessor r.st r.bitcnt) r.bitcnt + 1 = waitsAfter r.st r.bitcnt := by
  rcases (isTimedWait_iff r.st).mp hst with hc | hc | hc | hc | hc
  · simp [waitsAfter, waitSuccessor, hc]
  · simp [waitsAfter, waitSuccessor, hc]
  · have hzero : r.bitcnt.toNat = 0 := h.bitcnt_eq_zero (by simp [hc])
    simp [waitsAfter, waitSuccessor, hc, hzero]
  · have hlt : r.bitcnt.toNat < 40 := h.bitcnt_lt (.inl hc)
    simp [waitsAfter, waitSuccessor, hc]
    omega
  · exact absurd hc hne

/-- After a bit that is not the 40th comes the next bit's `BIT_LOW`. -/
theorem waitsAfter_bitDecoded (hlt : r.bitcnt.toNat < 40) (hne : r.bitcnt ≠ 39#6) :
    waitsAfter Code.bitLow (r.bitcnt + 1#6) + 1 = waitsAfter Code.bitHigh r.bitcnt := by
  have hsucc : (r.bitcnt + 1#6).toNat = r.bitcnt.toNat + 1 := bitcnt_succ_toNat hlt
  have hnot : r.bitcnt.toNat ≠ 39 := fun heq => hne (BitVec.eq_of_toNat_eq heq)
  simp [waitsAfter, hsucc]
  omega

/-- A wait that is entered with the counter at 0 has a bound below that of the wait before it. -/
theorem cyclesLeft_next_wait {r' : Regs} (hst : isTimedWait r.st = true) (ht : r.ticks < p.tTimeout)
    (hst' : isTimedWait r'.st = true) (hnext : waitsAfter r'.st r'.bitcnt + 1 = waitsAfter r.st r.bitcnt) :
    cyclesLeft p r' < cyclesLeft p r := by
  rw [cyclesLeft_timedWait hst, cyclesLeft_timedWait hst', ← hnext, Nat.succ_mul]
  omega

/-- A timed wait that sees its level goes on to the next wait, or after the 40th bit to `DONE`. -/
theorem level_progress (h : Inv p r) (hst : isTimedWait r.st = true) (ht : r.ticks < p.tTimeout) :
    (clockEdge p x (waitExit p r) r).st ≠ Code.idle
      ∧ cyclesLeft p (clockEdge p x (waitExit p r) r) < cyclesLeft p r := by
  by_cases hbit : r.st = Code.bitHigh
  · rw [waitExit, if_pos hbit, clockEdge_bitDecoded]
    by_cases hlast : r.bitcnt = 39#6
    · rw [if_pos hlast, cyclesLeft_done rfl, cyclesLeft_timedWait hst]
      exact ⟨by simp, by omega⟩
    · rw [if_neg hlast]
      refine ⟨by simp, cyclesLeft_next_wait hst ht rfl ?_⟩
      rw [hbit]
      exact waitsAfter_bitDecoded (h.bitcnt_lt (.inr hbit)) hlast
  · have hwait : isTimedWait (waitSuccessor r.st r.bitcnt) = true := by
      rcases (isTimedWait_iff r.st).mp hst with hc | hc | hc | hc | hc
      case inr.inr.inr.inr => exact absurd hc hbit
      all_goals
        rw [hc]
        rfl
    rw [waitExit, if_neg hbit, clockEdge_moveOn]
    exact ⟨(ne_of_isTimedWait hwait).1, cyclesLeft_next_wait hst ht hwait (waitsAfter_waitSuccessor h hst hbit)⟩

/-- Every cycle of a read with a tick ends it or lowers the bound. -/
theorem edge_progress (hw : p.wf = true) (htick : x.tickEn = true) (hr : Reading p r) :
    readEnded (edge p r x) ∨ ((edge p r x).st ≠ Code.idle ∧ cyclesLeft p (edge p r x) < cyclesLeft p r) := by
  obtain ⟨_, _, htimeout, hstart, hsettle, _⟩ := (Params.wf_iff p).mp hw
  obtain ⟨hbusy, hinv⟩ := hr
  have hreleased : (edge p r x).st = Code.idle → (edge p r x).oe = false := fun hidle =>
    (inv_edge hinv).oe_eq_false (by simp [hidle])
  rcases stateCode_kinds r.st with hst | hst | hst | hst | hst | hst
  · exact absurd hst hbusy
  · right
    rw [edge_startLow hst]
    split
    · rw [cyclesLeft_startLow hst, cyclesLeft_startSettle rfl]
      exact ⟨by simp, by omega⟩
    next ht =>
      have hend : windowEnd p r.st = p.tStart := by rw [hst, windowEnd_startLow]
      exact ⟨hbusy, cyclesLeft_tableCount htick (hend ▸ Nat.lt_of_not_le ht) (hend ▸ hstart)⟩
  · right
    rw [edge_startSettle hst]
    split
    · rw [cyclesLeft_startSettle hst, cyclesLeft_timedWait rfl]
      exact ⟨by simp, by simp [waitsAfter]; omega⟩
    next ht =>
      have hend : windowEnd p r.st = p.tSettle := by rw [hst, windowEnd_startSettle]
      exact ⟨hbusy, cyclesLeft_tableCount htick (hend ▸ Nat.lt_of_not_le ht) (hend ▸ hsettle)⟩
  · rcases Nat.lt_or_ge r.ticks p.tTimeout with ht | ht
    · right
      by_cases hlevel : x.lineIn = awaitedLevel r.st
      · rw [edge_level hst ht hlevel]
        exact level_progress hinv hst ht
      · have hend : windowEnd p r.st = p.tTimeout := windowEnd_timedWait hst
        rw [edge_repeat hst ht hlevel]
        exact ⟨hbusy, cyclesLeft_tableCount htick (hend ▸ ht) (hend ▸ htimeout)⟩
    · left
      have hfail : edge p r x = tableFail (waitError r.st) p x r := edge_timeout hst ht
      refine ⟨by rw [hfail]; rfl, by rw [hfail]; rfl, ?_⟩
      rw [hfail, tableFail]
      by_cases hbit : r.st = Code.bitLow ∨ r.st = Code.bitHigh <;> simp [waitError, hbit]
  · left
    refine ⟨edge_done_st hst, hreleased (edge_done_st hst), ?_⟩
    rw [edge_done hst]
    split <;> simp
  · have hlegal : r.st.toNat ≤ 8 := hinv.legal
    omega

/-- So it ends it, or goes on with it under a smaller bound. -/
theorem Reading.edge_ends_or_goes_on (hw : p.wf = true) (htick : x.tickEn = true) (hr : Reading p r) :
    readEnded (edge p r x) ∨ (Reading p (edge p r x) ∧ cyclesLeft p (edge p r x) < cyclesLeft p r) :=
  (edge_progress hw htick hr).imp_right fun ⟨hbusy, hlt⟩ =>
    ⟨⟨hbusy, inv_edge hr.inv⟩, hlt⟩

/-- The registers an accepted read writes are those of one accepted after reset, so they satisfy the invariant (R27). -/
theorem reading_of_accept (hst : r.st = Code.idle) (hx : x.start = true) : Reading p (edge p r x) := by
  have hsame : edge p r x = edge p Regs.reset x := (edge_accept hst hx).trans (edge_accept rfl hx).symm
  refine ⟨?_, ?_⟩
  · rw [edge_accept hst hx]
    simp
  · rw [hsame]
    exact inv_edge (inv_reset p)

/-- The bound of an accepted read is `readBound`, less the accepting cycle. -/
theorem cyclesLeft_of_accept (hst : r.st = Code.idle) (hx : x.start = true) :
    cyclesLeft p (edge p r x) + 1 = readBound p := by
  rw [edge_accept hst hx, cyclesLeft_startLow rfl, readBound, Nat.sub_zero]
  omega

end

end Sys2Proof.Machine

/-! ### The statement -/

namespace Sys2Proof.Proofs

open Sys2Proof.Machine

/-- Settles O49: the accepting cycle, then cycles that lower the bound until the read ends. -/
theorem everyReadTerminates : Obligations.EveryReadTerminates := by
  intro s x l hw hst hx htick hlen
  have hbound : cyclesLeft s.cfg (edge s.cfg s.regs x) + 1 = readBound s.cfg := cyclesLeft_of_accept hst hx
  obtain ⟨n, hpos, hle, hended, hbefore⟩ := foldl_reaches (p := s.cfg) (l := l) (P := Reading s.cfg)
    (Q := readEnded) (bound := cyclesLeft s.cfg) (fun _ _ => cyclesLeft_pos)
    (fun y hy _ hr => hr.edge_ends_or_goes_on hw (htick.tickEn (List.mem_cons_of_mem _ hy)))
    (reading_of_accept hst hx) (by omega)
  have hrun : ∀ m ≤ n, ∃ t, runCycles (m + 1) (s.fed (x :: l)) = .next t
      ∧ t.regs = (l.take m).foldl (edge s.cfg) (edge s.cfg s.regs x) := fun m hm => by
    obtain ⟨t, ht, _, hregs⟩ := run_first (s := s) (l := x :: l) (n := m + 1) (by rw [List.length_cons]; omega) hw
      fun y hy => htick.rst (List.mem_of_mem_take hy)
    exact ⟨t, ht, hregs⟩
  obtain ⟨t, ht, htregs⟩ := hrun n le_rfl
  obtain ⟨hidle, hoe, hstatus⟩ := htregs ▸ hended
  refine ⟨n + 1, t, by omega, by omega, ht, hidle, hoe, hstatus, fun m hm hmn => ?_⟩
  obtain ⟨k, rfl⟩ : ∃ k, m = k + 1 := ⟨m - 1, by omega⟩
  obtain ⟨u, hu, huregs⟩ := hrun k (by omega)
  have hreading : Reading s.cfg u.regs := huregs ▸ hbefore k (by omega)
  exact ⟨u, hu, (busy_iff _).mpr hreading.busy, hreading.inv.noStatusWhileBusy hreading.busy⟩

end Sys2Proof.Proofs

/-! ## Proofs: who writes which register (spec/10_state.md, the table of registers)

First the inversion lemma of `exec`: everything that executing any of the 22 instructions can do to the registers, each with
the event it is done in. Then one lemma per register, read off the list. Then the statement. -/

namespace Sys2Proof.Machine

/-- What executing an instruction can do to the registers, and in which event. -/
inductive Effect (i : Instr) (s : State) : Regs → Prop where
  /-- `HOLD`, the reads and the request (R62, R63, R72, R54). -/
  | nothing : Effect i s s.regs
  /-- A state operation that writes nothing else, and `TMR_COUNT` (R73). -/
  | count (h : i.isStateOp = true ∨ i = .tmrCount) : Effect i s (tableCount s.cfg s.env.now s.regs)
  /-- R71. -/
  | tmrReset (h : i = .tmrReset) : Effect i s { s.regs with ticks := 0 }
  /-- R60. -/
  | driveLow (h : i = .driveLow) : Effect i s { s.regs with oe := true, out := false }
  /-- R61. -/
  | releaseHigh (h : i = .releaseHigh) : Effect i s { s.regs with oe := false }
  /-- R82. -/
  | accept (h : accepts i s) : Effect i s
      { st := Code.startLow, frame := 0#40, bitcnt := 0#6, oe := true, out := false, status := Code.none, ticks := 0 }
  /-- R83. -/
  | endPulse (h : endsPulse i s) : Effect i s { s.regs with st := Code.startSettle, oe := false, ticks := 0 }
  /-- R84. -/
  | endSettle (h : endsSettle i s) : Effect i s { s.regs with st := Code.awaitAckLow, ticks := 0 }
  /-- R81, R124. -/
  | timeout {c : StateCode} (h : timesOut i c s) : Effect i s (tableFail (waitError c) s.cfg s.env.now s.regs)
  /-- R85, R86, R87, R96. -/
  | level {c : StateCode} (h : seesLevel i c s) (hc : c ≠ Code.bitHigh) :
      Effect i s { s.regs with st := waitSuccessor c s.regs.bitcnt, ticks := 0 }
  /-- R97 before the 40th bit. -/
  | bit (h : seesLevel i Code.bitHigh s) (hn : s.regs.bitcnt ≠ 39#6) : Effect i s
      { s.regs with st := waitSuccessor Code.bitHigh s.regs.bitcnt,
                    frame := shiftIn s.regs.frame (decide (s.cfg.tBit < s.regs.ticks)),
                    bitcnt := s.regs.bitcnt + 1#6, ticks := 0 }
  /-- R97 at the 40th bit. -/
  | lastBit (h : seesLevel i Code.bitHigh s) : Effect i s
      { s.regs with st := waitSuccessor Code.bitHigh s.regs.bitcnt,
                    frame := shiftIn s.regs.frame (decide (s.cfg.tBit < s.regs.ticks)),
                    bitcnt := s.regs.bitcnt + 1#6, ticks := countTicks s.cfg s.env.now s.regs.ticks }
  /-- R110. -/
  | take (h : takesFrame i s) : Effect i s
      { s.regs with st := Code.idle, status := Code.ok, ticks := countTicks s.cfg s.env.now s.regs.ticks }
  /-- R125. -/
  | reject (h : rejects i s) : Effect i s
      { s.regs with st := Code.idle, status := Code.checksumMismatch, frame := 0#40,
                    ticks := countTicks s.cfg s.env.now s.regs.ticks }
  /-- `NONE` (R121). -/
  | resultNone (h : i = .resultNone) : Effect i s { s.regs with status := Code.none }
  /-- `OK` (R121, R110). -/
  | resultOk (h : i = .resultOk) : Effect i s { s.regs with st := Code.idle, status := Code.ok }
  /-- `NORESPONSE` and `FRAMETIMEOUT` (R122, R123, R124). -/
  | resultFail {e : ResultCode}
      (h : (e = Code.noResponse ∧ i = .resultNoResponse) ∨ (e = Code.frameTimeout ∧ i = .resultFrameTimeout)) :
      Effect i s { s.regs with st := Code.idle, frame := 0#40, bitcnt := 0#6, oe := false, status := e }
  /-- `CHECKSUMMISMATCH` (R125). -/
  | resultMismatch (h : i = .resultChecksumMismatch) :
      Effect i s { s.regs with st := Code.idle, frame := 0#40, status := Code.checksumMismatch }

/-! ### The inversion lemma of `exec` -/

section
variable {i : Instr} {s : State} {r : Regs}

/-- The operations with an S code are the state operations (R46). -/
theorem isStateOp_of_encode {c : StateCode} (h : encode i = some (.state c)) : i.isStateOp = true := by
  cases i with
  | idle | startLow | startSettle | awaitAckLow | awaitAckHigh | awaitDataStart | bitLow | bitHigh | done => rfl
  | hold | driveLow | releaseHigh | tmrCount | tmrReset | readLevel | tmrRead | readSensor
  | resultNone | resultOk | resultNoResponse | resultFrameTimeout | resultChecksumMismatch => cases h

/-- A timed wait times out, takes its exit, or counts. -/
theorem effect_timedWait {c : StateCode} {a : Ctl} (hi : encode i = some (.state c)) (hc : isTimedWait c = true)
    (ha : seesLevel i c s → Effect i s (clockEdge s.cfg s.env.now a s.regs)) :
    Effect i s (clockEdge s.cfg s.env.now
      (timedWait (awaitedLevel c) (waitError c) a s.cfg s.regs s.env.now) s.regs) := by
  rcases timedWait_cases (awaitedLevel c) (waitError c) a s.cfg s.regs s.env.now with
    ⟨ht, hw⟩ | ⟨ht, hx, hw⟩ | ⟨_, _, hw⟩ <;> rw [hw]
  · exact .timeout ⟨hi, hc, ht⟩
  · exact ha ⟨hi, hc, ht, hx⟩
  · exact .count (.inl (isStateOp_of_encode hi))

theorem effect_idle : Effect .idle s (clockEdge s.cfg s.env.now (ctlIdle s.cfg s.regs s.env.now) s.regs) := by
  rw [clockEdge_ctlIdle]
  split
  next hx => exact .accept ⟨rfl, hx⟩
  next => exact .count (.inl rfl)

theorem effect_startLow :
    Effect .startLow s (clockEdge s.cfg s.env.now (ctlStartLow s.cfg s.regs s.env.now) s.regs) := by
  rw [clockEdge_ctlStartLow]
  split
  next ht => exact .endPulse ⟨rfl, ht⟩
  next => exact .count (.inl rfl)

theorem effect_startSettle :
    Effect .startSettle s (clockEdge s.cfg s.env.now (ctlStartSettle s.cfg s.regs s.env.now) s.regs) := by
  rw [clockEdge_ctlStartSettle]
  split
  next ht => exact .endSettle ⟨rfl, ht⟩
  next => exact .count (.inl rfl)

theorem effect_bitDecoded (h : seesLevel i Code.bitHigh s) :
    Effect i s (clockEdge s.cfg s.env.now (bitDecoded s.cfg s.regs) s.regs) := by
  rw [clockEdge_bitDecoded]
  split
  next hlast => simpa [waitSuccessor, hlast] using Effect.lastBit h
  next hlast => simpa [waitSuccessor, hlast] using Effect.bit h hlast

theorem effect_done : Effect .done s (clockEdge s.cfg s.env.now (ctlDone s.cfg s.regs s.env.now) s.regs) := by
  rw [clockEdge_ctlDone]
  split
  next hsum => exact .take ⟨rfl, hsum⟩
  next hsum =>
    obtain ⟨hen, hne⟩ := not_or.mp hsum
    exact .reject ⟨rfl, by simpa using hen, hne⟩

/-- Whatever the instruction, executing it has one of the effects. -/
theorem exec_effect {t : State} (h : exec i s = .next t) : Effect i s t.regs := by
  cases i <;> cases h
  case idle => exact effect_idle
  case startLow => exact effect_startLow
  case startSettle => exact effect_startSettle
  case awaitAckLow => exact effect_timedWait (c := Code.awaitAckLow) rfl rfl fun hx => .level hx (by decide)
  case awaitAckHigh => exact effect_timedWait (c := Code.awaitAckHigh) rfl rfl fun hx => .level hx (by decide)
  case awaitDataStart => exact effect_timedWait (c := Code.awaitDataStart) rfl rfl fun hx => .level hx (by decide)
  case bitLow => exact effect_timedWait (c := Code.bitLow) rfl rfl fun hx => .level hx (by decide)
  case bitHigh => exact effect_timedWait (c := Code.bitHigh) rfl rfl effect_bitDecoded
  case done => exact effect_done
  case driveLow => exact .driveLow rfl
  case releaseHigh => exact .releaseHigh rfl
  case tmrCount => exact .count (.inr rfl)
  case tmrReset => exact .tmrReset rfl
  case resultNone => exact .resultNone rfl
  case resultOk => exact .resultOk rfl
  case resultNoResponse => exact .resultFail (.inl ⟨rfl, rfl⟩)
  case resultFrameTimeout => exact .resultFail (.inr ⟨rfl, rfl⟩)
  case resultChecksumMismatch => exact .resultMismatch rfl
  case hold | readLevel | tmrRead | readSensor => exact .nothing

/-! ### Each register's writers -/

theorem Effect.out_written (h : Effect i s r) (hne : r.out ≠ s.regs.out) :
    r.out = false ∧ (i = .driveLow ∨ accepts i s) := by
  cases h with
  | driveLow hi => exact ⟨rfl, .inl hi⟩
  | accept ha => exact ⟨rfl, .inr ha⟩
  | nothing | count | tmrReset | releaseHigh | endPulse | endSettle | timeout | level | bit | lastBit | take | reject
  | resultNone | resultOk | resultFail | resultMismatch => exact absurd rfl hne

/-- `NORESPONSE` or `FRAMETIMEOUT` executed as an operation. -/
theorem failCode_of_resultFail {e : ResultCode}
    (h : (e = Code.noResponse ∧ i = .resultNoResponse) ∨ (e = Code.frameTimeout ∧ i = .resultFrameTimeout)) :
    i = .resultNoResponse ∨ i = .resultFrameTimeout :=
  h.imp And.right And.right

theorem Effect.oe_written (h : Effect i s r) (hne : r.oe ≠ s.regs.oe) :
    (r.oe = true ∧ (i = .driveLow ∨ accepts i s))
      ∨ (r.oe = false ∧ (i = .releaseHigh ∨ endsPulse i s ∨ (∃ c, timesOut i c s)
          ∨ i = .resultNoResponse ∨ i = .resultFrameTimeout)) := by
  cases h with
  | driveLow hi => exact .inl ⟨rfl, .inl hi⟩
  | accept ha => exact .inl ⟨rfl, .inr ha⟩
  | releaseHigh hi => exact .inr ⟨rfl, .inl hi⟩
  | endPulse he => exact .inr ⟨rfl, .inr (.inl he)⟩
  | timeout ht => exact .inr ⟨rfl, .inr (.inr (.inl ⟨_, ht⟩))⟩
  | resultFail hf => exact .inr ⟨rfl, .inr (.inr (.inr (failCode_of_resultFail hf)))⟩
  | nothing | count | tmrReset | endSettle | level | bit | lastBit | take | reject | resultNone | resultOk
  | resultMismatch => exact absurd rfl hne

theorem Effect.frame_written (h : Effect i s r) (hne : r.frame ≠ s.regs.frame) :
    (r.frame = 0#40
        ∧ (accepts i s ∨ (∃ c, timesOut i c s) ∨ rejects i s ∨ (i = .resultNoResponse ∨ i = .resultFrameTimeout)
            ∨ i = .resultChecksumMismatch))
      ∨ (r.frame = shiftIn s.regs.frame (decide (s.cfg.tBit < s.regs.ticks)) ∧ seesLevel i Code.bitHigh s) := by
  cases h with
  | accept ha => exact .inl ⟨rfl, .inl ha⟩
  | timeout ht => exact .inl ⟨rfl, .inr (.inl ⟨_, ht⟩)⟩
  | reject hj => exact .inl ⟨rfl, .inr (.inr (.inl hj))⟩
  | resultFail hf => exact .inl ⟨rfl, .inr (.inr (.inr (.inl (failCode_of_resultFail hf))))⟩
  | resultMismatch hi => exact .inl ⟨rfl, .inr (.inr (.inr (.inr hi)))⟩
  | bit hx | lastBit hx => exact .inr ⟨rfl, hx⟩
  | nothing | count | tmrReset | driveLow | releaseHigh | endPulse | endSettle | level | take | resultNone
  | resultOk => exact absurd rfl hne

theorem Effect.bitcnt_written (h : Effect i s r) (hne : r.bitcnt ≠ s.regs.bitcnt) :
    (r.bitcnt = 0#6 ∧ (accepts i s ∨ (∃ c, timesOut i c s) ∨ i = .resultNoResponse ∨ i = .resultFrameTimeout))
      ∨ (r.bitcnt = s.regs.bitcnt + 1#6 ∧ seesLevel i Code.bitHigh s) := by
  cases h with
  | accept ha => exact .inl ⟨rfl, .inl ha⟩
  | timeout ht => exact .inl ⟨rfl, .inr (.inl ⟨_, ht⟩)⟩
  | resultFail hf => exact .inl ⟨rfl, .inr (.inr (failCode_of_resultFail hf))⟩
  | bit hx | lastBit hx => exact .inr ⟨rfl, hx⟩
  | nothing | count | tmrReset | driveLow | releaseHigh | endPulse | endSettle | level | take | reject | resultNone
  | resultOk | resultMismatch => exact absurd rfl hne

theorem Effect.status_written (h : Effect i s r) (hne : r.status ≠ s.regs.status) :
    (r.status = Code.none ∧ (accepts i s ∨ i = .resultNone))
      ∨ (r.status = Code.ok ∧ (takesFrame i s ∨ i = .resultOk))
      ∨ (r.status = Code.checksumMismatch ∧ (rejects i s ∨ i = .resultChecksumMismatch))
      ∨ (∃ c, timesOut i c s ∧ r.status = waitError c)
      ∨ (r.status = Code.noResponse ∧ i = .resultNoResponse)
      ∨ (r.status = Code.frameTimeout ∧ i = .resultFrameTimeout) := by
  cases h with
  | accept ha => exact .inl ⟨rfl, .inl ha⟩
  | resultNone hi => exact .inl ⟨rfl, .inr hi⟩
  | take hk => exact .inr (.inl ⟨rfl, .inl hk⟩)
  | resultOk hi => exact .inr (.inl ⟨rfl, .inr hi⟩)
  | reject hj => exact .inr (.inr (.inl ⟨rfl, .inl hj⟩))
  | resultMismatch hi => exact .inr (.inr (.inl ⟨rfl, .inr hi⟩))
  | timeout ht => exact .inr (.inr (.inr (.inl ⟨_, ht, rfl⟩)))
  | resultFail hf => exact .inr (.inr (.inr (.inr hf)))
  | nothing | count | tmrReset | driveLow | releaseHigh | endPulse | endSettle | level | bit | lastBit =>
    exact absurd rfl hne

theorem Effect.ticks_written (h : Effect i s r) (hne : r.ticks ≠ s.regs.ticks) :
    (r.ticks = countTicks s.cfg s.env.now s.regs.ticks ∧ (i.isStateOp = true ∨ i = .tmrCount))
      ∨ (r.ticks = 0 ∧ (i = .tmrReset ∨ accepts i s ∨ endsPulse i s ∨ endsSettle i s
          ∨ ∃ c, seesLevel i c s ∧ ¬ (c = Code.bitHigh ∧ s.regs.bitcnt = 39#6))) := by
  cases h with
  | count hi => exact .inl ⟨rfl, hi⟩
  | timeout ht => exact .inl ⟨rfl, .inl (isStateOp_of_encode ht.1)⟩
  | lastBit hx => exact .inl ⟨rfl, .inl (isStateOp_of_encode hx.1)⟩
  | take hk => exact .inl ⟨rfl, .inl (hk.1 ▸ rfl)⟩
  | reject hj => exact .inl ⟨rfl, .inl (hj.1 ▸ rfl)⟩
  | tmrReset hi => exact .inr ⟨rfl, .inl hi⟩
  | accept ha => exact .inr ⟨rfl, .inr (.inl ha)⟩
  | endPulse he => exact .inr ⟨rfl, .inr (.inr (.inl he))⟩
  | endSettle he => exact .inr ⟨rfl, .inr (.inr (.inr (.inl he)))⟩
  | level hx hc => exact .inr ⟨rfl, .inr (.inr (.inr (.inr ⟨_, hx, fun hlast => hc hlast.1⟩)))⟩
  | bit hx hn => exact .inr ⟨rfl, .inr (.inr (.inr (.inr ⟨_, hx, fun hlast => hn hlast.2⟩)))⟩
  | nothing | driveLow | releaseHigh | resultNone | resultOk | resultFail | resultMismatch => exact absurd rfl hne

theorem Effect.st_written (h : Effect i s r) (hne : r.st ≠ s.regs.st) :
    (r.st = Code.startLow ∧ accepts i s) ∨ (r.st = Code.startSettle ∧ endsPulse i s)
      ∨ (r.st = Code.awaitAckLow ∧ endsSettle i s)
      ∨ (∃ c, seesLevel i c s ∧ r.st = waitSuccessor c s.regs.bitcnt)
      ∨ (r.st = Code.idle ∧ ((∃ c, timesOut i c s) ∨ i = .done ∨ (i = .resultNoResponse ∨ i = .resultFrameTimeout)
          ∨ i = .resultOk ∨ i = .resultChecksumMismatch)) := by
  cases h with
  | accept ha => exact .inl ⟨rfl, ha⟩
  | endPulse he => exact .inr (.inl ⟨rfl, he⟩)
  | endSettle he => exact .inr (.inr (.inl ⟨rfl, he⟩))
  | level hx | bit hx | lastBit hx => exact .inr (.inr (.inr (.inl ⟨_, hx, rfl⟩)))
  | timeout ht => exact .inr (.inr (.inr (.inr ⟨rfl, .inl ⟨_, ht⟩⟩)))
  | take hk => exact .inr (.inr (.inr (.inr ⟨rfl, .inr (.inl hk.1)⟩)))
  | reject hj => exact .inr (.inr (.inr (.inr ⟨rfl, .inr (.inl hj.1)⟩)))
  | resultFail hf => exact .inr (.inr (.inr (.inr ⟨rfl, .inr (.inr (.inl (failCode_of_resultFail hf)))⟩)))
  | resultOk hi => exact .inr (.inr (.inr (.inr ⟨rfl, .inr (.inr (.inr (.inl hi)))⟩)))
  | resultMismatch hi => exact .inr (.inr (.inr (.inr ⟨rfl, .inr (.inr (.inr (.inr hi)))⟩)))
  | nothing | count | tmrReset | driveLow | releaseHigh | resultNone => exact absurd rfl hne

end

end Sys2Proof.Machine

/-! ### The statement -/

namespace Sys2Proof.Proofs

open Sys2Proof.Machine

/-- Settles O37: each register's clause, read off the list of effects. -/
theorem onlyTheNamedOperationsWrite : Obligations.OnlyTheNamedOperationsWrite := by
  intro i s t h
  have heffect : Effect i s t.regs := exec_effect h
  exact ⟨heffect.out_written, heffect.oe_written, heffect.frame_written, heffect.bitcnt_written,
    heffect.status_written, heffect.ticks_written, heffect.st_written⟩

end Sys2Proof.Proofs
